-- ==== Sys2Proof/Word.lean ====
section
/-! DEFINITION. The plainest data of the IL4256: bytes and words (00_scope, Conventions), port and frame numbers. -/

namespace Sys2Proof

/-- Eight bits of a word or of the array. -/
abbrev Byte := BitVec 8

/-- A 16-bit word; the low byte is the byte at the even address (00_scope, Numbers). -/
abbrev Word := BitVec 16

/-- A port, P0 to P3 (00_scope, Numbering). -/
abbrev Port := Fin 4

/-- A frame of the shared array, 0 to 63 (R1). -/
abbrev Frame := Fin 64

end Sys2Proof
end

