-- ==== Sys2Proof/Config.lean ====
section
/-! DEFINITION. The fixed sizes of the part (00_scope, Summary of Characteristics) and the values its specification
leaves open. -/

namespace Sys2Proof.Config

/-- Bytes of one frame. -/
def frameBytes : Nat := 4096

/-- Bytes of the whole array: 64 frames (00_scope). -/
def arrayBytes : Nat := 262144

/-- Bytes of one scrub piece and of one full copy segment (R36, R114). -/
def pieceBytes : Nat := 256

/-- A port's quota in SPLIT mode (R11). -/
def quota : Nat := 16

/-- Offers an inbox holds (R48). -/
def inboxSize : Nat := 8

/-- Ordinary events a queue holds (R128). -/
def queueSize : Nat := 31

/-- REFCLK periods of one tick (R199). -/
def periodsPerTick : Nat := 25000

/-- FREE VALUE (R197, R43, R100; log 14). `cutShort k i` says whether byte `i` of the claim that the `k`-th
assertion of RST# cut short had already been written. It has no body: nothing can be proved of it. -/
opaque cutShort : Nat → Nat → Bool

end Sys2Proof.Config
end

