-- ==== Sys2Proof/Syntax.lean ====
section
/-! DEFINITION. The commands of the block: one constructor for each row of spec/opcode_table.json, and the
operands a row needs. -/

namespace Sys2Proof

/-- Who may claim the array at the SRAM Arbiter (R193). -/
inductive Claimant where
  | port (p : Port)
  | copy
  | scrub
  deriving DecidableEq, Repr

/-- The two kinds of happening at which the arbiter grants (R194): the arrival of a presented claim, and the end or
return of the grant in progress. -/
inductive ArbiterHappening where
  | arrival (c : Claimant)
  | endOfGrant
  deriving DecidableEq, Repr

/-- The blocks that hand events to the Event Unit (R137). -/
inductive Producer where
  | directory
  | copyEngine
  | windowUnit (p : Port)
  deriving DecidableEq, Repr

/-- The levels that R186 tests at the falling edge of a strobe: the two selects and the other strobe. They are inputs of
the part, so the commands of the bus carry them. -/
structure BusLevels where
  wselLow : Bool
  cselLow : Bool
  otherLow : Bool
  deriving DecidableEq, Repr

/-- The levels of WSEL# and RD# at a falling edge of WR# with CSEL# low (R186). -/
structure ControlLevels where
  wselLow : Bool
  rdLow : Bool
  deriving DecidableEq, Repr

/-- The byte lanes of a write: `lo` with BLE# low, `hi` with BHE# low (R165, R190). -/
structure Lanes where
  lo : Bool
  hi : Bool
  deriving DecidableEq, Repr

/-- An edge of a port's RD#: a falling edge with the address lines A15 to A1 and the levels at it, which begins a read
cycle (R186), or the rising edge, which ends it (R187, R191; log 15). -/
inductive ReadEdge where
  | falls (a : BitVec 15) (levels : BusLevels)
  | rises
  deriving DecidableEq, Repr

/-- One step of the part, as spec/opcode_table.json lists them.

A row in which an owning block takes a port's pending command has the port as its operand: its arguments are the
words captured with the CMD write (R152, R153). A row that is a control or window write carries the data, the byte lanes
and the levels at its falling edge, and the address lines A15 to A1 where the row does not fix the register; a write of one
register has CSEL# low by what it is (R186). -/
inductive Instr where
  -- the frame commands of the directory
  | claim (p : Port)
  | claimAny (p : Port)
  | release (p : Port)
  | label (p : Port)
  | fallback (p : Port)
  | frameInfo (p : Port)
  | lend (p : Port)
  | revoke (p : Port)
  | drop (p : Port)
  -- the offer commands of the directory
  | offer (p : Port)
  | withdraw (p : Port)
  | accept (p : Port)
  | decline (p : Port)
  | peek (p : Port)
  -- the commands of the Window Unit
  | mapSet (p : Port)
  | mapClear (p : Port)
  | mapRead (p : Port)
  | faultClear (p : Port)
  -- the ring commands of the Copy Engine
  | ringSetup (p : Port)
  | ringKick (p : Port)
  | ringStop (p : Port)
  | ringRestart (p : Port)
  | ringTeardown (p : Port)
  | ringStatus (p : Port)
  -- the Event Unit's, the Session Controller's and the Command Unit's own command
  | post (p : Port)
  | detach (p : Port)
  | unknown (p : Port)
  -- control writes
  | overrun (p : Port) (value : Word) (lanes : Lanes) (levels : ControlLevels)
  | closingRefusal (p : Port) (value : Word) (lanes : Lanes) (levels : ControlLevels)
  | pselWrite (p : Port) (value : Word) (lanes : Lanes) (levels : ControlLevels)
  | ieWrite (p : Port) (value : Word) (lanes : Lanes) (levels : ControlLevels)
  | evpop (p : Port) (value : Word) (lanes : Lanes) (levels : ControlLevels)
  | registerWrite (p : Port) (a : BitVec 15) (value : Word) (lanes : Lanes) (levels : BusLevels)
  -- window accesses
  | windowRead (p : Port) (edge : ReadEdge)
  | windowWrite (p : Port) (a : BitVec 15) (value : Word) (lanes : Lanes) (levels : BusLevels)
  /-- `rdLow`: whether RD# is still low at this moment (R187). -/
  | delayedWindowAccess (p : Port) (rdLow : Bool)
  /-- `rdLow`: whether RD# is still low at this moment (R187). -/
  | readCarriedOut (p : Port) (rdLow : Bool)
  | writeCarriedOut (p : Port)
  | arbiterGrant (h : ArbiterHappening)
  -- the Scrub Engine
  | scrubStart
  | pieceEnd
  | scrubDone
  -- the Tick Timer
  | tick
  | expiry (f : Frame)
  -- the Copy Engine
  | selection
  | fetchEnd
  | segmentBegin
  | segmentEnd
  | writeBackEnd
  -- the Event Unit and the sessions
  | eventArrival (source : Producer)
  | prstAsserted (p : Port)
  | prstReleased (p : Port)
  | eventUnitClosing (p : Port)
  | commandUnitClosing (p : Port)
  | windowUnitClosing (p : Port)
  | directoryClosing (p : Port)
  | copyEngineClosing (p : Port)
  | jobGone (p : Port)
  | disposal (p : Port)
  | disposalDone (p : Port)
  | peerUp (p : Port)
  -- chip reset
  | rstAsserted
  /-- `qmode`: the level of QMODE at the edge (high is SPLIT, R11); `prstHigh`: the level of each PRST# (R168). -/
  | rstRisingEdge (qmode : Bool) (prstHigh : Vector Bool 4)
  | commandWrite (p : Port) (value : Word) (lanes : Lanes) (levels : ControlLevels)
  deriving DecidableEq, Repr

end Sys2Proof
end

