-- ==== Sys2Proof/Machine/State.lean ====
section
/-! DEFINITION. The state of the IL4256 as plain data, block by block, and the state at the end of chip reset. -/

namespace Sys2Proof.Machine

/-- The array: (byte address, byte) pairs, addresses strictly rising, no listed byte zero. An unlisted byte reads
zero (log 2). -/
abbrev Memory := List Host.Cell

/-! ## The Frame Directory -/

/-- The four states of a frame (R2). -/
inductive FrameState where
  | free | owned | offered | scrubbing
  deriving DecidableEq, Repr

/-- The urgency of an offer (R47). -/
inductive OfferClass where
  | normal | urgent
  deriving DecidableEq, Repr

/-- An offer record (R47). `recipient` is the field "to" and `offerer` the field "from". -/
structure Offer where
  frame : Frame
  offerer : Port
  recipient : Port
  cls : OfferClass
  timeout : Word
  remaining : Word
  deriving DecidableEq, Repr

/-- The directory's entry for one frame (R1). -/
structure FrameRecord where
  state : FrameState
  owner : Option Port
  readers : Vector Bool 4
  generation : Byte
  label : Word
  fallback : Option Port
  offer : Option Offer
  reservation : Option Port
  mark : Bool
  deriving DecidableEq, Repr

/-- A frame record at the end of chip reset (R3). -/
def FrameRecord.reset : FrameRecord where
  state := .scrubbing
  owner := none
  readers := Vector.replicate 4 false
  generation := 0
  label := 0
  fallback := none
  offer := none
  reservation := none
  mark := false

/-- What the Session Controller asks of the directory (R173, R178). -/
inductive DirMail where
  | closing (p : Port)
  | dispose (p : Port)
  deriving DecidableEq, Repr

/-! ## The Scrub Engine -/

/-- The four states of the Scrub Engine (R33). -/
inductive ScrubPhase where
  | idle | held | zeroing | reporting
  deriving DecidableEq, Repr

/-- The scrub queue, head first (R31), and the engine's progress on the head (R33). -/
structure ScrubEngine where
  queue : List Frame
  phase : ScrubPhase
  pieces : Nat
  deriving DecidableEq, Repr

/-! ## The Window Units -/

/-- What an entry allows (R76). -/
inductive Access where
  | ro | rw
  deriving DecidableEq, Repr

/-- A valid slot entry; an invalid entry is `none` (R76). -/
structure SlotEntry where
  frame : Frame
  access : Access
  deriving DecidableEq, Repr

/-- The fault kinds of a window access (R86, R91). -/
inductive FaultKind where
  | unmapped | noFrame | noRight | readOnly | suspended | closing
  deriving DecidableEq, Repr

/-- The direction of an access (R91). -/
inductive Direction where
  | read | write
  deriving DecidableEq, Repr

/-- A recorded fault (R91). Its slot is bits 15:12 of the address and is computed where it is shown. -/
structure FaultRecord where
  kind : FaultKind
  addr : Word
  frame : Option Frame
  direction : Direction
  count : Word
  deriving DecidableEq, Repr

/-- A word of the array: a frame and an even offset in it (R75). -/
structure WordPlace where
  frame : Frame
  offset : BitVec 12
  deriving DecidableEq, Repr

/-- A performed write waiting for its grant (R188). -/
structure HeldWrite where
  place : WordPlace
  data : Word
  lo : Bool
  hi : Bool
  deriving DecidableEq, Repr

/-- A window cycle captured while the write hold was occupied (R189). -/
structure DelayedAccess where
  direction : Direction
  a : BitVec 15
  data : Word
  lo : Bool
  hi : Bool
  deriving DecidableEq, Repr

/-- A port's Window Unit and window bus (R75, R187 to R189). -/
structure WindowUnit where
  profiles : Vector (Vector (Option SlotEntry) 16) 4
  active : Fin 4
  fault : Option FaultRecord
  hold : Option HeldWrite
  reading : Option WordPlace
  delayed : Option DelayedAccess
  /-- The word the part drives on D15 to D0 for a window or control read whose RD# is low (R187, R191; log 15). -/
  dataOut : Option Word
  deriving DecidableEq, Repr

/-- A Window Unit at the rising edge of RST# (R77, R188, R197). -/
def WindowUnit.reset : WindowUnit where
  profiles := Vector.replicate 4 (Vector.replicate 16 none)
  active := 0
  fault := none
  hold := none
  reading := none
  delayed := none
  dataOut := none

/-! ## The Copy Engine -/

/-- The descriptor status codes (R120). -/
inductive DescStatus where
  | ok | badDescriptor | noSourceRight | noDestRight | stale | accessLost
  deriving DecidableEq, Repr

/-- The five states of a ring (R99). -/
inductive RingState where
  | unset | idle | active | stopping | stopped
  deriving DecidableEq, Repr

/-- Where a configured ring lies (R99): absent in UNSET. -/
structure RingConfig where
  frame : Frame
  base : Nat
  size : Nat
  deriving DecidableEq, Repr

/-- A ring record (R99). -/
structure Ring where
  state : RingState
  config : Option RingConfig
  head : Nat
  lastStatus : DescStatus
  kickNoted : Bool
  deriving DecidableEq, Repr

/-- An UNSET ring (R99, R100). -/
def Ring.unset : Ring where
  state := .unset
  config := none
  head := 0
  lastStatus := .ok
  kickNoted := false

/-- Whose job is current and where its descriptor lies: `offset` is the descriptor's first byte in the ring frame and
`index` its ring index. -/
structure JobPlace where
  port : Port
  ringFrame : Frame
  offset : Nat
  index : Nat
  deriving DecidableEq, Repr

/-- A validated job (R109, R113): the descriptor fields it works from, and what its completed segments moved. -/
structure Job where
  place : JobPlace
  control : Word
  source : Frame
  sourceOffset : Nat
  sourceGen : Byte
  dest : Frame
  destOffset : Nat
  destGen : Byte
  length : Nat
  done : Nat
  sum : BitVec 32
  deriving DecidableEq, Repr

/-- A job whose outcome is decided and waits to be written back (R121). -/
structure WriteBack where
  place : JobPlace
  control : Word
  status : DescStatus
  done : Nat
  sum : BitVec 32
  deriving DecidableEq, Repr

/-- The five states of the Copy Engine with its current job (R110). -/
inductive EngineState where
  | free
  | fetching (j : JobPlace)
  | waiting (j : Job)
  | transferring (j : Job)
  | writing (w : WriteBack)
  deriving DecidableEq, Repr

/-- The Copy Engine (R99, R110, R111, R125). -/
structure CopyEngine where
  rings : Vector Ring 4
  engine : EngineState
  pointer : Port
  /-- The port's closing announcement has been taken while its job was current, and job gone is not yet reported. -/
  owed : Vector Bool 4
  deriving DecidableEq, Repr

/-! ## The Event Unit -/

/-- The seventeen event kinds (R137). -/
inductive EventKind where
  | offerArrived | offerAccepted | offerDeclined | offerExpired | offerCancelled | offerReturned
  | readGranted | readRevoked | claimGranted | frameInherited | notice | copyDone | ringStopped
  | fault | peerDown | peerUp | overflow
  deriving DecidableEq, Repr

/-- An event record (R136). `reason` is the byte that holds a reason, class, status or fault kind (R201). -/
structure EventRecord where
  kind : EventKind
  reason : Byte
  port : Option Port
  frame : Option Frame
  generation : Byte
  session : Byte
  value : Word
  deriving DecidableEq, Repr

/-- A port's event queue, oldest first, the OVERFLOW event behind the ordinary ones as its count, and its interrupt
enable (R128). -/
structure EventPort where
  ordinary : List EventRecord
  overflow : Option Word
  enable : Bool
  deriving DecidableEq, Repr

/-- The Event Unit's state for one port after chip reset and after a closing (R129, R148). -/
def EventPort.reset : EventPort where
  ordinary := []
  overflow := none
  enable := false

/-- The events of one request, on their way to the Event Unit (R131). -/
structure Handover where
  source : Producer
  events : List (Port × EventRecord)
  deriving DecidableEq, Repr

/-! ## The Command Units -/

/-- The result codes (R200). -/
inductive ResultCode where
  | ok | queued | badArg | notOwner | taken | scrubbing | reserved | quota | noFree | peerDown
  | self | inboxFull | offered | notOffered | notFound | ringFrame | ringState | dropped | closing | unknown
  deriving DecidableEq, Repr

/-- The four argument words (R150). -/
structure Args where
  arg0 : Word
  arg1 : Word
  arg2 : Word
  arg3 : Word
  deriving DecidableEq, Repr

/-- A pending command (R150). `clearsOverrun`: OVERRUN was on when its CMD write was taken and no CMD write has been
discarded since, so its taking turns OVERRUN off (R156, R157; log 18). -/
structure PendingCommand where
  code : Byte
  args : Args
  clearsOverrun : Bool
  deriving DecidableEq, Repr

/-- A port's command block (R150). PENDING is on exactly when `pendingCmd` is held. -/
structure CommandBlock where
  cmd : Byte
  args : Args
  pendingCmd : Option PendingCommand
  overrun : Bool
  result : ResultCode
  res0 : Word
  res1 : Word
  res2 : Word
  res3 : Word
  deriving DecidableEq, Repr

/-- A command block at the rising edge of RST# (R150). -/
def CommandBlock.reset : CommandBlock where
  cmd := 0
  args := ⟨0, 0, 0, 0⟩
  pendingCmd := none
  overrun := false
  result := .ok
  res0 := 0
  res1 := 0
  res2 := 0
  res3 := 0

/-! ## The Session Controller -/

/-- The report a teardown waits for (R167). -/
inductive TeardownStep where
  | awaitJob | awaitDisposal
  deriving DecidableEq, Repr

/-- A port's session state; rejoin and the teardown step are present only in CLOSING (R167). -/
inductive SessionState where
  | down
  | up
  | closing (rejoin : Bool) (teardown : TeardownStep)
  deriving DecidableEq, Repr

/-- A port's session record (R167), the level of its PRST# as last taken, and what the Session Controller and the other
blocks have sent each other about it that is not yet taken (R173, R178, R179, R181). -/
structure SessionRecord where
  state : SessionState
  number : Byte
  prstLow : Bool
  annEvent : Bool
  annCommand : Bool
  annWindow : Bool
  annCopy : Bool
  jobGone : Bool
  disposalDone : Bool
  peerUp : Option Byte
  deriving DecidableEq, Repr

/-- A session record at the rising edge of RST#, by the level of PRST# (R168). -/
def SessionRecord.reset (prstHigh : Bool) : SessionRecord where
  state := if prstHigh then .up else .down
  number := if prstHigh then 1 else 0
  prstLow := !prstHigh
  annEvent := false
  annCommand := false
  annWindow := false
  annCopy := false
  jobGone := false
  disposalDone := false
  peerUp := none

/-! ## The SRAM Arbiter -/

/-- The grant in progress (R193): none, one claim holding the array, or a grant that has ended or been returned and
whose end the arbiter has not yet taken (R194). -/
inductive ArrayState where
  | free
  | held (c : Claimant)
  | ended
  deriving DecidableEq, Repr

/-- The two engines (R193). -/
inductive EngineId where
  | copy | scrub
  deriving DecidableEq, Repr

/-- The SRAM Arbiter (R193). The waiting claims are those presented whose arrival is not yet taken (`presented`) and
those that have arrived and wait (`waiting`) (R194; log 10). -/
structure Arbiter where
  array : ArrayState
  presented : List Claimant
  waiting : List Claimant
  lastPort : Port
  lastEngine : EngineId
  deriving DecidableEq, Repr

/-! ## The whole part -/

/-- The state of the part. -/
structure State where
  /-- The commands waiting to be taken, first in, first out: the model's own (log 3). -/
  pending : List Instr
  /-- RST# is low (R197). -/
  rstLow : Bool
  /-- SPLIT quota mode, as sampled from QMODE (R11). -/
  splitQuota : Bool
  mem : Memory
  frames : Vector FrameRecord 64
  /-- Each port's inbox, head first: the frames whose offers it holds (R48). -/
  inboxes : Vector (List Frame) 4
  /-- The closing-taken flags (R10). -/
  closingTaken : Vector Bool 4
  dirMail : List DirMail
  scrub : ScrubEngine
  /-- REFCLK periods since the last tick (R50, R199). -/
  tickCount : Nat
  windows : Vector WindowUnit 4
  copy : CopyEngine
  queues : Vector EventPort 4
  handovers : List Handover
  commands : Vector CommandBlock 4
  sessions : Vector SessionRecord 4
  arbiter : Arbiter
  /-- How many free values have been drawn: the model's own (log 14). -/
  draws : Nat
  deriving DecidableEq, Repr

/-- The machine stops with a fault: never. No happening the specification describes stops the part; window faults,
result codes and descriptor status codes are effects on State. -/
inductive Fault where
  deriving DecidableEq, Repr

/-- The model has no meaning for a command. -/
inductive Refusal where
  /-- Raised by `exec` alone, for a row that has no meaning yet (none now). Safe: the run stops. -/
  | notModelled (mnemonic : String)
  deriving DecidableEq, Repr

/-- The part at the rising edge of RST# with QMODE low and every PRST# high (R198; the pin levels are log 1): FLAT
quota, every port UP in session 1, every frame SCRUBBING, the queue 0 to 63, piece 0 of frame 0 presented. -/
def State.reset : State where
  pending := []
  rstLow := false
  splitQuota := false
  mem := []
  frames := Vector.replicate 64 FrameRecord.reset
  inboxes := Vector.replicate 4 []
  closingTaken := Vector.replicate 4 false
  dirMail := []
  scrub := { queue := List.finRange 64, phase := .zeroing, pieces := 0 }
  tickCount := 0
  windows := Vector.replicate 4 WindowUnit.reset
  copy :=
    { rings := Vector.replicate 4 Ring.unset, engine := .free, pointer := 3, owed := Vector.replicate 4 false }
  queues := Vector.replicate 4 EventPort.reset
  handovers := []
  commands := Vector.replicate 4 CommandBlock.reset
  sessions := Vector.replicate 4 (SessionRecord.reset true)
  arbiter := { array := .free, presented := [.scrub], waiting := [], lastPort := 3, lastEngine := .copy }
  draws := 0

end Sys2Proof.Machine
end

