-- ==== Sys2Proof/Machine/Table.lean ====
section
/-! DEFINITION. Reading and replacing one entry of a fixed table (a frame table, a table by port), and changing every
entry. -/

namespace Sys2Proof.Machine

/-- Entry `i` of a table. -/
def sel {α : Type} {n : Nat} (v : Vector α n) (i : Fin n) : α := v[i.val]

/-- The table with entry `i` replaced. -/
def put {α : Type} {n : Nat} (v : Vector α n) (i : Fin n) (x : α) : Vector α n := v.set i.val x

/-- The table with every entry changed by `f`. -/
def mapAll {α β : Type} {n : Nat} (f : α → β) (v : Vector α n) : Vector β n :=
  ⟨(v.toList.map f).toArray, by simp⟩

end Sys2Proof.Machine
end

