-- ==== Sys2Proof/Machine/Ops.lean ====
section
/-! DEFINITION. The shared operations: the array, one access to each table of the state, event records and queues,
the hand-over of events, claims at the arbiter, quota, scrub queue, offers, closings. -/

namespace Sys2Proof.Machine

/-- The outcome of a step. -/
abbrev Result := Host.Outcome State Fault Refusal

/-! ## The array -/

/-- What an array byte that the list does not name holds (log 2). -/
def Memory.unlisted : Byte := 0

/-- The byte at an array address. -/
def Memory.read : Memory → Nat → Byte
  | [], _ => Memory.unlisted
  | (a, b) :: rest, x => if x = a then b else if x < a then Memory.unlisted else Memory.read rest x

/-- Puts a byte at an address of a list in canonical form; the byte an unlisted address reads as removes the entry. -/
def Memory.insert : Memory → Nat → Byte → Memory
  | [], x, v => if v = Memory.unlisted then [] else [(x, v)]
  | (a, b) :: rest, x, v =>
    if x = a then (if v = Memory.unlisted then rest else (x, v) :: rest)
    else if x < a then (if v = Memory.unlisted then (a, b) :: rest else (x, v) :: (a, b) :: rest)
    else (a, b) :: Memory.insert rest x v

/-- Writes one byte of the array. An address outside the array has no byte and nothing is written: no access the
specification describes has one (log 19). -/
def Memory.write (m : Memory) (x : Nat) (v : Byte) : Memory :=
  if x < Config.arrayBytes then Memory.insert m x v else m

/-- Writes bytes at rising addresses. -/
def Memory.writeBytes : Memory → Nat → List Byte → Memory
  | m, _, [] => m
  | m, a, b :: bs => Memory.writeBytes (Memory.write m a b) (a + 1) bs

/-- Reads `n` bytes at rising addresses. -/
def Memory.readBytes (m : Memory) : Nat → Nat → List Byte
  | _, 0 => []
  | a, n + 1 => Memory.read m a :: Memory.readBytes m (a + 1) n

/-- Copies `n` bytes one at a time in ascending order; each is read as it stands at that point (R116). -/
def Memory.copyBytes : Memory → Nat → Nat → Nat → Memory
  | m, _, _, 0 => m
  | m, source, dest, n + 1 =>
    Memory.copyBytes (Memory.write m dest (Memory.read m source)) (source + 1) (dest + 1) n

/-- Writes those of the bytes, the `i`-th onward, that `done` picks (R197). -/
def Memory.writeSome (done : Nat → Bool) : Nat → Memory → Nat → List Byte → Memory
  | _, m, _, [] => m
  | i, m, a, b :: bs =>
    Memory.writeSome done (i + 1) (if done i then Memory.write m a b else m) (a + 1) bs

/-- Every entry's address is above `low`, in the array, and rises; no entry is the unlisted byte. -/
def Memory.canonicalAbove : Nat → Memory → Bool
  | _, [] => true
  | low, (a, b) :: rest =>
    decide (low ≤ a) && decide (a < Config.arrayBytes) && decide (b ≠ Memory.unlisted)
      && Memory.canonicalAbove (a + 1) rest

/-- The one canonical form of the array's list. -/
def Memory.wf (m : Memory) : Bool := Memory.canonicalAbove 0 m

/-- The array byte address of an offset in a frame (R75). -/
def arrayAddr (f : Frame) (offset : Nat) : Nat := f.val * Config.frameBytes + offset

/-- The array byte address of a word's even byte. -/
def WordPlace.addr (w : WordPlace) : Nat := arrayAddr w.frame w.offset.toNat

/-- The word at an even address, low byte first (00_scope, Numbers). -/
def Memory.readWord (m : Memory) (a : Nat) : Word := Memory.read m (a + 1) ++ Memory.read m a

/-- A write changes the bytes of the selected lanes (R190). -/
def Memory.writeLanes (m : Memory) (w : HeldWrite) : Memory :=
  let m1 := if w.lo then Memory.write m w.place.addr (w.data.extractLsb' 0 8) else m
  if w.hi then Memory.write m1 (w.place.addr + 1) (w.data.extractLsb' 8 8) else m1

/-! ## One entry of each table -/

namespace State

def frame (s : State) (f : Frame) : FrameRecord := sel s.frames f
def inbox (s : State) (p : Port) : List Frame := sel s.inboxes p
def window (s : State) (p : Port) : WindowUnit := sel s.windows p
def ring (s : State) (p : Port) : Ring := sel s.copy.rings p
def queue (s : State) (p : Port) : EventPort := sel s.queues p
def command (s : State) (p : Port) : CommandBlock := sel s.commands p
def session (s : State) (p : Port) : SessionRecord := sel s.sessions p

def setFrame (s : State) (f : Frame) (r : FrameRecord) : State := { s with frames := put s.frames f r }
def setFrames (s : State) (v : Vector FrameRecord 64) : State := { s with frames := v }
def setInbox (s : State) (p : Port) (l : List Frame) : State := { s with inboxes := put s.inboxes p l }
def setClosingTaken (s : State) (p : Port) (b : Bool) : State := { s with closingTaken := put s.closingTaken p b }
def setDirMail (s : State) (l : List DirMail) : State := { s with dirMail := l }
def setScrub (s : State) (e : ScrubEngine) : State := { s with scrub := e }
def setTickCount (s : State) (n : Nat) : State := { s with tickCount := n }
def setMem (s : State) (m : Memory) : State := { s with mem := m }
def setWindow (s : State) (p : Port) (w : WindowUnit) : State := { s with windows := put s.windows p w }
def setRing (s : State) (p : Port) (r : Ring) : State :=
  { s with copy := { s.copy with rings := put s.copy.rings p r } }
def setEngine (s : State) (e : EngineState) : State := { s with copy := { s.copy with engine := e } }
def setPointer (s : State) (p : Port) : State := { s with copy := { s.copy with pointer := p } }
def setOwed (s : State) (p : Port) (b : Bool) : State :=
  { s with copy := { s.copy with owed := put s.copy.owed p b } }
def setQueue (s : State) (p : Port) (q : EventPort) : State := { s with queues := put s.queues p q }
def setHandovers (s : State) (l : List Handover) : State := { s with handovers := l }
def setCommand (s : State) (p : Port) (c : CommandBlock) : State := { s with commands := put s.commands p c }
def setSession (s : State) (p : Port) (r : SessionRecord) : State := { s with sessions := put s.sessions p r }
def setArbiter (s : State) (a : Arbiter) : State := { s with arbiter := a }
def setPending (s : State) (l : List Instr) : State := { s with pending := l }

/-! ## Who is UP -/

/-- The port is UP in the Session Controller's record (R167). -/
def isUp (s : State) (p : Port) : Bool := (s.session p).state == .up

/-- The port is UP in the directory's view: its closing-taken flag is off (R10). -/
def dirUp (s : State) (p : Port) : Bool := !(sel s.closingTaken p)

/-- The port is CLOSING. -/
def isClosing (s : State) (p : Port) : Bool :=
  match (s.session p).state with
  | .closing _ _ => true
  | _ => false

/-! ## Quota -/

/-- The frames a port owns and the reservations it holds (R11). It is computed, not stored (R12). -/
def quotaCount (s : State) (p : Port) : Nat :=
  s.frames.toList.countP (fun r => r.owner == some p) +
    s.frames.toList.countP (fun r => r.reservation == some p)

/-- A request that adds one to the count is refused in SPLIT mode at a count of 16 (R11). -/
def quotaFull (s : State) (p : Port) : Bool := s.splitQuota && decide (Config.quota ≤ s.quotaCount p)

end State

/-! ## Event queues -/

/-- A count that stops at 65 535 (00_scope, Counts). -/
def saturatingNext (n : Word) : Word := if n = 0xFFFF then n else n + 1

/-- The fate of an event at a port that is UP (R130). -/
def EventPort.place (q : EventPort) (e : EventRecord) : EventPort :=
  match q.overflow with
  | some n => { q with overflow := some (saturatingNext n) }
  | none =>
    if q.ordinary.length < Config.queueSize then { q with ordinary := q.ordinary ++ [e] }
    else { q with overflow := some 1 }

/-- Whether an event that arrives now is appended (R130, R140). -/
def EventPort.accepts (q : EventPort) : Bool :=
  q.overflow.isNone && decide (q.ordinary.length < Config.queueSize)

/-- The number of events held, an OVERFLOW event counted as one (R133). -/
def EventPort.held (q : EventPort) : Nat := q.ordinary.length + (if q.overflow.isSome then 1 else 0)

/-- Removes the head; removing the OVERFLOW event ends the freeze (R132, R135). -/
def EventPort.pop (q : EventPort) : EventPort :=
  match q.ordinary with
  | _ :: rest => { q with ordinary := rest }
  | [] => { q with overflow := none }

/-- An event arriving for a port: discarded uncounted unless the port is UP, else placed (R130). -/
def State.arrive (s : State) (d : Port × EventRecord) : State :=
  if s.isUp d.1 then s.setQueue d.1 ((s.queue d.1).place d.2) else s

/-- Several events, in the order the producer's rule lists them (R131). -/
def State.arriveAll (s : State) (ds : List (Port × EventRecord)) : State := ds.foldl State.arrive s

/-- The producer hands the events of one request to the Event Unit together (R131, R73). -/
def State.handOver (s : State) (source : Producer) (events : List (Port × EventRecord)) : State :=
  if events.isEmpty then s else s.setHandovers (s.handovers ++ [⟨source, events⟩])

/-- At a port's entry to UP, what was handed over for it before that moment is lost (R143, R148; log 7). -/
def State.dropInTransit (s : State) (p : Port) : State :=
  s.setHandovers
    ((s.handovers.map fun h => { h with events := h.events.filter fun d => d.1 != p }).filter fun h =>
      !h.events.isEmpty)

/-! ## Event records (R137) -/

/-- A record with every field but the kind absent (R136). -/
def EventRecord.blank (k : EventKind) : EventRecord := ⟨k, 0, none, none, 0, 0, 0⟩

/-- The class byte of OFFER_ARRIVED and the class argument of OFFER (R53, R201). -/
def OfferClass.code : OfferClass → Byte
  | .normal => 0
  | .urgent => 1

/-- Reasons of OFFER_CANCELLED and OFFER_RETURNED (R201). -/
inductive OfferReason where
  | withdrawn | expired | peerDown
  deriving DecidableEq, Repr

def OfferReason.code : OfferReason → Byte
  | .withdrawn => 1
  | .expired => 2
  | .peerDown => 3

/-- Reasons of READ_REVOKED (R201). -/
inductive RevokeReason where
  | revoked | ownerChanged | released
  deriving DecidableEq, Repr

def RevokeReason.code : RevokeReason → Byte
  | .revoked => 1
  | .ownerChanged => 2
  | .released => 3

/-- Fault kind codes (R201); CLOSING is never recorded or sent (R97) and has none. -/
def FaultKind.code : FaultKind → Byte
  | .unmapped => 1
  | .noFrame => 2
  | .noRight => 3
  | .readOnly => 4
  | .suspended => 5
  | .closing => 0

/-- Descriptor status codes (R203). -/
def DescStatus.code : DescStatus → Byte
  | .ok => 0
  | .badDescriptor => 1
  | .noSourceRight => 2
  | .noDestRight => 3
  | .stale => 4
  | .accessLost => 5

namespace Event

def offerArrived (offerer : Port) (f : Frame) (gen : Byte) (label : Word) (c : OfferClass) : EventRecord :=
  { EventRecord.blank .offerArrived with
    reason := c.code, port := some offerer, frame := some f, generation := gen, value := label }
def offerAccepted (acceptor : Port) (f : Frame) (gen : Byte) : EventRecord :=
  { EventRecord.blank .offerAccepted with port := some acceptor, frame := some f, generation := gen }
def offerDeclined (decliner : Port) (f : Frame) : EventRecord :=
  { EventRecord.blank .offerDeclined with port := some decliner, frame := some f }
def offerExpired (recipient : Port) (f : Frame) : EventRecord :=
  { EventRecord.blank .offerExpired with port := some recipient, frame := some f }
def offerCancelled (offerer : Port) (f : Frame) (r : OfferReason) : EventRecord :=
  { EventRecord.blank .offerCancelled with reason := r.code, port := some offerer, frame := some f }
def offerReturned (recipient : Port) (f : Frame) : EventRecord :=
  { EventRecord.blank .offerReturned with
    reason := OfferReason.peerDown.code, port := some recipient, frame := some f }
def readGranted (owner : Port) (f : Frame) (gen : Byte) : EventRecord :=
  { EventRecord.blank .readGranted with port := some owner, frame := some f, generation := gen }
def readRevoked (owner : Port) (f : Frame) (r : RevokeReason) : EventRecord :=
  { EventRecord.blank .readRevoked with reason := r.code, port := some owner, frame := some f }
def claimGranted (f : Frame) (gen : Byte) : EventRecord :=
  { EventRecord.blank .claimGranted with frame := some f, generation := gen }
def frameInherited (closing : Port) (f : Frame) (gen : Byte) (label : Word) : EventRecord :=
  { EventRecord.blank .frameInherited with
    port := some closing, frame := some f, generation := gen, value := label }
def notice (poster : Port) (session : Byte) (value : Word) : EventRecord :=
  { EventRecord.blank .notice with port := some poster, session := session, value := value }
def copyDone (index : Nat) : EventRecord :=
  { EventRecord.blank .copyDone with reason := DescStatus.ok.code, value := BitVec.ofNat 16 index }
def ringStopped (index : Nat) (status : DescStatus) : EventRecord :=
  { EventRecord.blank .ringStopped with reason := status.code, value := BitVec.ofNat 16 index }
def fault (kind : FaultKind) (addr : Word) : EventRecord :=
  { EventRecord.blank .fault with reason := kind.code, value := addr }
def peerDown (closing : Port) (session : Byte) : EventRecord :=
  { EventRecord.blank .peerDown with port := some closing, session := session }
def peerUp (entering : Port) (session : Byte) : EventRecord :=
  { EventRecord.blank .peerUp with port := some entering, session := session }
def overflow (count : Word) : EventRecord := { EventRecord.blank .overflow with value := count }

end Event

/-- The ports in ascending order. -/
def allPorts : List Port := List.finRange 4

/-- The frames in ascending order. -/
def allFrames : List Frame := List.finRange 64

/-- READ_REVOKED to every member of a frame's reader set but one (R16, R28, R58). -/
def revokeReaders (r : FrameRecord) (f : Frame) (owner : Port) (spared : Option Port) (reason : RevokeReason) :
    List (Port × EventRecord) :=
  (allPorts.filter fun q => sel r.readers q && (some q != spared)).map fun q => (q, Event.readRevoked owner f reason)

/-- The empty reader set. -/
def noReaders : Vector Bool 4 := Vector.replicate 4 false

/-! ## Claims at the arbiter (R193) -/

/-- A claimant presents its claim. -/
def State.present (s : State) (c : Claimant) : State :=
  s.setArbiter { s.arbiter with presented := s.arbiter.presented ++ [c] }

/-- A claimant withdraws its claim before its grant. -/
def State.withdrawClaim (s : State) (c : Claimant) : State :=
  s.setArbiter { s.arbiter with presented := s.arbiter.presented.erase c, waiting := s.arbiter.waiting.erase c }

/-- The grant in progress ends or is returned; the arbiter has yet to take the end. -/
def State.endGrant (s : State) : State := s.setArbiter { s.arbiter with array := .ended }

/-- The array is held by a claimant. -/
def State.holds (s : State) (c : Claimant) : Bool := s.arbiter.array == .held c

/-! ## Frames, offers and the scrub queue -/

/-- The frame gets a new owner: OWNED, generation raised by 1 and wrapping (R4). -/
def FrameRecord.granted (r : FrameRecord) (p : Port) : FrameRecord :=
  { r with state := .owned, owner := some p, generation := r.generation + 1 }

/-- The frame is given up to be scrubbed: no owner, no readers, no fallback; generation and label are kept (R16, R28). -/
def FrameRecord.givenUp (r : FrameRecord) : FrameRecord :=
  { r with state := .scrubbing, owner := none, readers := noReaders, fallback := none, offer := none }

/-- The frame passes to a new owner by ACCEPT or inheritance: no readers, no fallback, the label kept (R58, R28). -/
def FrameRecord.passed (r : FrameRecord) (p : Port) : FrameRecord :=
  { r.granted p with readers := noReaders, fallback := none, offer := none }

/-- The frame is given up and appended to the tail of the scrub queue, as one happening (R32). -/
def State.sendToScrub (s : State) (f : Frame) : State :=
  (s.setFrame f (s.frame f).givenUp).setScrub { s.scrub with queue := s.scrub.queue ++ [f] }

/-- The offer leaves its recipient's inbox, closing the gap (R49). -/
def State.leaveInbox (s : State) (o : Offer) : State := s.setInbox o.recipient ((s.inbox o.recipient).erase o.frame)

/-- The offer of a frame is removed and the frame returns to OWNED by the offerer (R52, R56, R60, R67, R68). -/
def State.endOffer (s : State) (f : Frame) : State :=
  match (s.frame f).offer with
  | none => s
  | some o => (s.setFrame f { s.frame f with state := .owned, offer := none }).leaveInbox o

/-- Takes up the head of the scrub queue: IDLE when there is none, HELD while its segment mark is on, else ZEROING with
piece 0 requested (R33, R34). -/
def State.takeHead (s : State) : State :=
  match s.scrub.queue with
  | [] => s.setScrub { s.scrub with phase := .idle, pieces := 0 }
  | f :: _ =>
    if (s.frame f).mark then s.setScrub { s.scrub with phase := .held, pieces := 0 }
    else (s.setScrub { s.scrub with phase := .zeroing, pieces := 0 }).present .scrub

/-! ## Sessions -/

/-- The session number of the next session: it wraps from 255 to 1 (R172). -/
def nextSession (n : Byte) : Byte := if n = 255 then 1 else n + 1

/-- A port's entry to CLOSING: the announcement goes to the five blocks (R169, R171, R173). -/
def State.enterClosing (s : State) (p : Port) (rejoin : Bool) : State :=
  (s.setSession p { s.session p with
      state := .closing rejoin .awaitJob, annEvent := true, annCommand := true, annWindow := true,
      annCopy := true }).setDirMail (s.dirMail ++ [.closing p])

/-- A port's entry to UP: session number + 1, the closing-taken flag cleared, the entry handed to the Event Unit for
PEER_UP (R10, R170, R172, R179, R181). -/
def State.enterUp (s : State) (p : Port) : State :=
  ((s.setSession p { s.session p with
      state := .up, number := nextSession (s.session p).number,
      peerUp := some (nextSession (s.session p).number) }).setClosingTaken p false).dropInTransit p

/-! ## Commands -/

/-- The outcome of a command: a result code and the four result words (R154). -/
structure Reply where
  code : ResultCode
  res0 : Word
  res1 : Word
  res2 : Word
  res3 : Word
  deriving DecidableEq, Repr

/-- A result without values: RES0 to RES3 are 0000h (R154). -/
def Reply.plain (c : ResultCode) : Reply := ⟨c, 0, 0, 0, 0⟩

/-- The owning block's result is written, the pending command becomes absent and PENDING turns off; OVERRUN turns off
where the command's CMD write came after it turned on (R154, R156). -/
def State.answer (s : State) (p : Port) (r : Reply) : State :=
  let c := s.command p
  s.setCommand p { c with
    pendingCmd := none
    overrun := c.overrun && !(c.pendingCmd.any fun k => k.clearsOverrun)
    result := r.code
    res0 := r.res0
    res1 := r.res1
    res2 := r.res2
    res3 := r.res3 }

/-- A pending command is discarded with result CLOSING; OVERRUN keeps its value (R160). -/
def State.discard (s : State) (p : Port) : State :=
  let c := s.command p
  if c.pendingCmd.isSome then
    s.setCommand p { c with pendingCmd := none, result := .closing, res0 := 0, res1 := 0, res2 := 0, res3 := 0 }
  else s

/-- A block comes to take the pending command of a port, when it is one of the block's: it discards it if the port is
not UP, else takes it whole and answers it (R154, R160). -/
def State.takeCommand (s : State) (p : Port) (owns : Byte → Bool) (body : State → Port → Args → State × Reply) :
    State :=
  match (s.command p).pendingCmd with
  | none => s
  | some k =>
    if owns k.code then
      if s.isUp p then (body s p k.args).1.answer p (body s p k.args).2 else s.discard p
    else s

/-- Nothing is taken while RST# is low (R197). -/
def whileRunning (s : State) (act : State → State) : Result := .next (if s.rstLow then s else act s)

end Sys2Proof.Machine
end

