-- ==== Sys2Proof/Machine/Operands.lean ====
section
/-! DEFINITION. The operand forms: command arguments as whole words (R10, R153), bus addresses (R75, R185), and the
fields of a copy descriptor (R109, R203). -/

namespace Sys2Proof.Machine

/-- An argument that names a frame must be 0 to 63 (R10). -/
def frameArg (w : Word) : Option Frame := if h : w.toNat < 64 then some ⟨w.toNat, h⟩ else none

/-- An argument that names a port must be 0 to 3 (R10). -/
def portArg (w : Word) : Option Port := if h : w.toNat < 4 then some ⟨w.toNat, h⟩ else none

/-- The fallback argument: a port, or 00FFh for none (R10, R18). -/
def fallbackArg (w : Word) : Option (Option Port) := if w = 0x00FF then some none else (portArg w).map some

/-- A flag argument must be 0 or 1 (R10). -/
def flagArg (w : Word) : Option Bool := if w = 0 then some false else if w = 1 then some true else none

/-- The class argument of OFFER: 0 NORMAL, 1 URGENT (R53). -/
def classArg (w : Word) : Option OfferClass := if w = 0 then some .normal else if w = 1 then some .urgent else none

/-- The index argument of PEEK: 0 to 7 (R61). -/
def indexArg (w : Word) : Option Nat := if w.toNat < 8 then some w.toNat else none

/-- The profile argument: 0 to 3 (R80). -/
def profileArg (w : Word) : Option (Fin 4) := if h : w.toNat < 4 then some ⟨w.toNat, h⟩ else none

/-- The slot argument: 0 to 15 (R80). -/
def slotArg (w : Word) : Option (Fin 16) := if h : w.toNat < 16 then some ⟨w.toNat, h⟩ else none

/-- The access argument: 0 RO, 1 RW (R80). -/
def accessArg (w : Word) : Option Access := if w = 0 then some .ro else if w = 1 then some .rw else none

/-- The ring sizes (R99, R102). -/
def ringSizes : List Nat := [4, 8, 16, 32, 64, 128]

/-- A ring's size and offset argument: the size one of the six, the offset a multiple of 32 with the ring inside its
frame (R102). -/
def ringFits (offset size : Nat) : Bool :=
  ringSizes.contains size && decide (offset % 32 = 0) && decide (offset + size * 32 ≤ Config.frameBytes)

/-! ## Bus addresses -/

/-- The even byte address of the word that A15 to A1 select (R185). -/
def byteAddr (a : BitVec 15) : Word := a ++ (0 : BitVec 1)

/-- Window address bits 15:12 (R75). -/
def slotOf (a : BitVec 15) : Fin 16 := (BitVec.extractLsb' 12 4 (byteAddr a)).toFin

/-- Window address bits 11:0 (R75). -/
def offsetOf (a : BitVec 15) : BitVec 12 := BitVec.extractLsb' 0 12 (byteAddr a)

/-- The byte offset in the control space that A7 to A1 select; A15 to A8 are ignored (R162, R185). -/
def controlOffset (a : BitVec 15) : Nat := 2 * (a.toNat % 128)

/-- A word with the bytes of the selected lanes replaced (R151, R165). -/
def mergeLanes (old new : Word) (lo hi : Bool) : Word :=
  (if hi then new.extractLsb' 8 8 else old.extractLsb' 8 8) ++
    (if lo then new.extractLsb' 0 8 else old.extractLsb' 0 8)

/-- What a strobe's falling edge addresses: the window, the control space, or nothing (R186). -/
inductive BusAccess where
  | window | control | untaken
  deriving DecidableEq, Repr

/-- The last four rows of R186's table: not taken with both strobes low, nor with both selects low or both high; else
the access is of the space whose select is low. -/
def busAccess (levels : BusLevels) : BusAccess :=
  match levels.otherLow, levels.wselLow, levels.cselLow with
  | false, true, false => .window
  | false, false, true => .control
  | _, _, _ => .untaken

/-! ## Copy descriptors -/

/-- The descriptor fields the engine acts on (R109, R203). -/
structure Descriptor where
  control : Word
  length : Word
  sourceFrame : Byte
  sourceGen : Byte
  sourceOffset : Word
  destFrame : Byte
  destGen : Byte
  destOffset : Word
  deriving DecidableEq, Repr

/-- OWN, NOTIFY, SUM and CHECKGEN of a control word (R203). -/
def ownBit (control : Word) : Bool := control.getLsbD 0
def notifyBit (control : Word) : Bool := control.getLsbD 1
def sumBit (control : Word) : Bool := control.getLsbD 2
def checkGenBit (control : Word) : Bool := control.getLsbD 3

/-- The first byte of a descriptor in the array (R99). -/
def JobPlace.addr (j : JobPlace) : Nat := arrayAddr j.ringFrame j.offset

/-- The descriptor at an array address (R203). -/
def readDescriptor (m : Memory) (a : Nat) : Descriptor where
  control := Memory.readWord m a
  length := Memory.readWord m (a + 2)
  sourceFrame := Memory.read m (a + 4)
  sourceGen := Memory.read m (a + 5)
  sourceOffset := Memory.readWord m (a + 6)
  destFrame := Memory.read m (a + 8)
  destGen := Memory.read m (a + 9)
  destOffset := Memory.readWord m (a + 10)

/-- A frame byte of a descriptor: 40h to FFh names no frame (R113, R203). -/
def frameByte (b : Byte) : Option Frame := if h : b.toNat < 64 then some ⟨b.toNat, h⟩ else none

/-- Checks 1 to 3 of R113: the job a descriptor forms, or none where it is a bad descriptor. -/
def Descriptor.toJob (d : Descriptor) (j : JobPlace) : Option Job :=
  if 1 ≤ d.length.toNat ∧ d.length.toNat ≤ Config.frameBytes then
    match frameByte d.sourceFrame, frameByte d.destFrame with
    | some source, some dest =>
      if d.sourceOffset.toNat + d.length.toNat ≤ Config.frameBytes ∧
          d.destOffset.toNat + d.length.toNat ≤ Config.frameBytes then
        some
          { place := j, control := d.control
            source := source, sourceOffset := d.sourceOffset.toNat, sourceGen := d.sourceGen
            dest := dest, destOffset := d.destOffset.toNat, destGen := d.destGen
            length := d.length.toNat, done := 0, sum := 0 }
      else none
    | _, _ => none
  else none

/-- Bytes 0 and 1 of the write-back: OWN 0, bits 15:1 as the fetch read them (R203). -/
def WriteBack.controlBytes (w : WriteBack) : List Byte :=
  let c := w.control &&& 0xFFFE
  [c.extractLsb' 0 8, c.extractLsb' 8 8]

/-- Bytes 12 to 19 of the write-back: status, 0, bytes done, and the checksum, which is 0 without SUM (R119, R203). -/
def WriteBack.resultBytes (w : WriteBack) : List Byte :=
  let n := BitVec.ofNat 16 w.done
  let c : BitVec 32 := if sumBit w.control then w.sum else 0
  [w.status.code, 0, n.extractLsb' 0 8, n.extractLsb' 8 8,
    c.extractLsb' 0 8, c.extractLsb' 8 8, c.extractLsb' 16 8, c.extractLsb' 24 8]

/-- The sum of bytes taken as 16-bit little-endian words; an odd last byte is a low half (R119). -/
def wordSum : List Byte → BitVec 32
  | [] => 0
  | [b] => b.setWidth 32
  | lo :: hi :: rest => (hi ++ lo).setWidth 32 + wordSum rest

end Sys2Proof.Machine
end

