-- ==== Sys2Proof/WellFormed.lean ====
section
/-! DEFINITION. Which terms of `Instr` are a cycle of the kind their row names. The meanings answer every term all
the same: a cycle that is not of its row's kind is answered as R152, R162, R165 and R186 answer that bus cycle. -/

namespace Sys2Proof

/-- The offsets of IE, PSEL, CMD and EVPOP, the registers whose writes have rows of their own (R162). -/
def ownBehaviourOffsets : List Nat := [0x06, 0x08, 0x10, 0x38]

/-- The falling edge of a read cycle is one that R186 takes by its levels, for the window or for the control space
(log 16). -/
def ReadEdge.wellFormed : ReadEdge → Bool
  | .falls _ levels => Machine.busAccess levels != .untaken
  | .rises => true

/-- CSEL# is the one select low and RD# is high (R186). -/
def ControlLevels.cselAlone (levels : ControlLevels) : Bool := !levels.wselLow && !levels.rdLow

/-- A CMD write needs the low lane, else it is no command (R152); a write of IE or PSEL needs it too, and an EVPOP
write needs either lane (R165); REGISTER_WRITE is a write of a register with no behaviour of its own (R165); a control
write has CSEL# alone low and a window write WSEL# alone, with RD# high (R186). -/
def Instr.wellFormed : Instr → Bool
  | .commandWrite _ _ lanes levels | .overrun _ _ lanes levels | .closingRefusal _ _ lanes levels =>
    lanes.lo && levels.cselAlone
  | .ieWrite _ _ lanes levels | .pselWrite _ _ lanes levels => lanes.lo && levels.cselAlone
  | .evpop _ _ lanes levels => (lanes.lo || lanes.hi) && levels.cselAlone
  | .registerWrite _ a _ _ levels =>
    !(ownBehaviourOffsets.contains (Machine.controlOffset a)) && Machine.busAccess levels == .control
  | .claim _ | .claimAny _ | .release _ | .label _ | .fallback _ | .frameInfo _ | .lend _ | .revoke _ | .drop _ => true
  | .offer _ | .withdraw _ | .accept _ | .decline _ | .peek _ => true
  | .mapSet _ | .mapClear _ | .mapRead _ | .faultClear _ => true
  | .ringSetup _ | .ringKick _ | .ringStop _ | .ringRestart _ | .ringTeardown _ | .ringStatus _ => true
  | .post _ | .detach _ | .unknown _ => true
  | .windowRead _ edge => edge.wellFormed
  | .windowWrite _ _ _ _ levels => Machine.busAccess levels == .window
  | .delayedWindowAccess _ _ => true
  | .readCarriedOut _ _ | .writeCarriedOut _ | .arbiterGrant _ => true
  | .scrubStart | .pieceEnd | .scrubDone | .tick | .expiry _ => true
  | .selection | .fetchEnd | .segmentBegin | .segmentEnd | .writeBackEnd => true
  | .eventArrival _ | .prstAsserted _ | .prstReleased _ => true
  | .eventUnitClosing _ | .commandUnitClosing _ | .windowUnitClosing _ => true
  | .directoryClosing _ | .copyEngineClosing _ => true
  | .jobGone _ | .disposal _ | .disposalDone _ | .peerUp _ | .rstAsserted | .rstRisingEdge _ _ => true

end Sys2Proof
end

