-- ==== Sys2Proof/Decode.lean ====
section
/-! DEFINITION. The command a word of spec/opcode_table.json spells. The table gives bits to none of its 64 rows
(every row's "fields" is empty and none has "fixed"), so no word spells a command (log 22). -/

namespace Sys2Proof

/-- No row of the table has bits, so every word spells no command. -/
def decodeTableWord (_nbits _w : Nat) : Option Instr := none

end Sys2Proof
end

