-- ==== Sys2Proof/Machine/Flags.lean ====
section
/-! DEFINITION. The words that software reads: the layouts of chapter 10 and the control-space reads (R162, R200 to
R202), and the outputs RDY and IRQ#. -/

namespace Sys2Proof.Machine

/-- The result code numbers (R200). -/
def ResultCode.code : ResultCode → Byte
  | .ok => 0x00
  | .queued => 0x01
  | .badArg => 0x02
  | .notOwner => 0x03
  | .taken => 0x04
  | .scrubbing => 0x05
  | .reserved => 0x06
  | .quota => 0x07
  | .noFree => 0x08
  | .peerDown => 0x09
  | .self => 0x0A
  | .inboxFull => 0x0B
  | .offered => 0x0C
  | .notOffered => 0x0D
  | .notFound => 0x0E
  | .ringFrame => 0x0F
  | .ringState => 0x10
  | .dropped => 0x11
  | .closing => 0x12
  | .unknown => 0x13

/-- A port field: FFh when absent (00_scope, Absent values). -/
def portField : Option Port → Byte
  | some p => BitVec.ofNat 8 p.val
  | none => 0xFF

/-- A frame field: FFh when absent. -/
def frameField : Option Frame → Byte
  | some f => BitVec.ofNat 8 f.val
  | none => 0xFF

/-- A byte in bits 7:0 of a word. -/
def lowByte (b : Byte) : Word := b.setWidth 16

/-- A flag in bit 0 of a word. -/
def flagWord (b : Bool) : Word := if b then 1 else 0

/-! ## Results of commands (R202) -/

/-- The frame states as FRAME_INFO codes them (R202). -/
def FrameState.code : FrameState → BitVec 3
  | .free => 0
  | .owned => 1
  | .offered => 2
  | .scrubbing => 3

/-- The reader set, one bit for each port, P0 lowest (R202). -/
def readerBits (v : Vector Bool 4) : BitVec 4 :=
  BitVec.ofBool (sel v 3) ++ BitVec.ofBool (sel v 2) ++ BitVec.ofBool (sel v 1) ++ BitVec.ofBool (sel v 0)

/-- RES0 to RES3 of FRAME_INFO (R202). -/
def frameInfoReply (r : FrameRecord) : Reply where
  code := .ok
  res0 := readerBits r.readers ++ BitVec.ofBool r.mark ++ r.state.code ++ r.generation
  res1 := r.label
  res2 := portField (r.offer.map Offer.recipient) ++ portField r.owner
  res3 := portField r.fallback ++ portField r.reservation

/-- RES0 to RES3 of PEEK (R61, R202). -/
def peekReply (o : Offer) (r : FrameRecord) : Reply where
  code := .ok
  res0 := frameField (some o.frame) ++ r.generation
  res1 := r.label
  res2 := o.cls.code ++ portField (some o.offerer)
  res3 := o.remaining

/-- RES0 to RES3 of MAP_READ (R82, R202). -/
def mapReadReply : Option SlotEntry → Reply
  | some e => ⟨.ok, 1, lowByte (frameField (some e.frame)), flagWord (e.access == .rw), 0⟩
  | none => ⟨.ok, 0, lowByte (frameField none), 0, 0⟩

/-- The ring states as RING_STATUS codes them (R202). -/
def RingState.code : RingState → Word
  | .unset => 0
  | .idle => 1
  | .active => 2
  | .stopping => 3
  | .stopped => 4

/-- RES0 to RES3 of RING_STATUS (R107, R202). -/
def ringStatusReply (r : Ring) : Reply :=
  ⟨.ok, r.state.code, BitVec.ofNat 16 r.head, lowByte r.lastStatus.code, 0⟩

/-! ## Events (R201) -/

/-- The kind codes, 01h upward in the order of R137's table (R201). -/
def EventKind.code : EventKind → Byte
  | .offerArrived => 0x01
  | .offerAccepted => 0x02
  | .offerDeclined => 0x03
  | .offerExpired => 0x04
  | .offerCancelled => 0x05
  | .offerReturned => 0x06
  | .readGranted => 0x07
  | .readRevoked => 0x08
  | .claimGranted => 0x09
  | .frameInherited => 0x0A
  | .notice => 0x0B
  | .copyDone => 0x0C
  | .ringStopped => 0x0D
  | .fault => 0x0E
  | .peerDown => 0x0F
  | .peerUp => 0x10
  | .overflow => 0x11

/-- The four words of an event record (R201). -/
structure EventWords where
  word0 : Word
  word1 : Word
  word2 : Word
  word3 : Word
  deriving DecidableEq, Repr

def EventRecord.words (e : EventRecord) : EventWords where
  word0 := e.reason ++ e.kind.code
  word1 := frameField e.frame ++ portField e.port
  word2 := e.session ++ e.generation
  word3 := e.value

/-- The head record of a queue (R133, R135). -/
def EventPort.head? (q : EventPort) : Option EventRecord :=
  match q.ordinary with
  | e :: _ => some e
  | [] => q.overflow.map Event.overflow

/-- The head view; the empty view reads 0000h, FFFFh, 0000h, 0000h (R133, R201). -/
def EventPort.headWords (q : EventPort) : EventWords :=
  match q.head? with
  | some e => e.words
  | none => ⟨0x0000, 0xFFFF, 0x0000, 0x0000⟩

/-! ## The fault record (R95, R202) -/

/-- The four words of FLT0 to FLT3; an empty record reads 0000h, 0000h, 00FFh, 0000h. -/
def faultWords : Option FaultRecord → EventWords
  | none => ⟨0x0000, 0x0000, 0x00FF, 0x0000⟩
  | some r =>
    ⟨BitVec.ofBool (r.direction == .write) ++ (0 : BitVec 3) ++ BitVec.extractLsb' 12 4 r.addr ++ r.kind.code,
      r.addr, lowByte (frameField r.frame), r.count⟩

/-! ## Control-space reads (R162, R163, R166, R200) -/

namespace State

/-- RDY of a port is high unless a window read is in flight or a window access is delayed (R187, R188, R189). -/
def rdyHigh (s : State) (p : Port) : Bool := (s.window p).reading.isNone && (s.window p).delayed.isNone

/-- The port takes a cycle at a falling edge of its strobe: RST# high, the port not DOWN, its PRST# high, RDY high (R186,
the first three rows of its table; `busAccess` has the others). -/
def cycleTaken (s : State) (p : Port) : Bool :=
  !s.rstLow && !(s.session p).prstLow && decide ((s.session p).state ≠ .down) && s.rdyHigh p

/-- IRQ# of a port is asserted (driven low): enable on and an event held, RST# high (R146, R196, R197). -/
def irqAsserted (s : State) (p : Port) : Bool := !s.rstLow && (s.queue p).enable && decide (0 < (s.queue p).held)

/-- ID1 of a port (R163, R200). -/
def id1 (s : State) (p : Port) : Word :=
  (0x40 : Byte) ++ (0 : BitVec 1) ++ BitVec.ofBool s.splitQuota ++ BitVec.ofNat 2 p.val ++ (1 : BitVec 4)

/-- STATUS (R151, R200). -/
def statusWord (s : State) (p : Port) : Word :=
  let c := s.command p
  BitVec.ofBool c.pendingCmd.isSome ++ BitVec.ofBool c.overrun ++ (0 : BitVec 6) ++ c.result.code

/-- The fault record as its port sees it: empty for the whole of CLOSING (R97). -/
def shownFault (s : State) (p : Port) : Option FaultRecord := if s.isClosing p then none else (s.window p).fault

/-- The active profile as its port sees it: 0 in CLOSING (R97). -/
def shownProfile (s : State) (p : Port) : Fin 4 := if s.isClosing p then 0 else (s.window p).active

/-- What the register at a byte offset of a port's control space reads (R162). -/
def registerRead (s : State) (p : Port) (offset : Nat) : Word :=
  let c := s.command p
  let q := s.queue p
  match offset with
  | 0x00 => 0x4256
  | 0x02 => s.id1 p
  | 0x04 => lowByte (s.session p).number
  | 0x06 => flagWord q.enable
  | 0x08 => BitVec.ofNat 16 (s.shownProfile p).val
  | 0x10 => lowByte c.cmd
  | 0x12 => c.args.arg0
  | 0x14 => c.args.arg1
  | 0x16 => c.args.arg2
  | 0x18 => c.args.arg3
  | 0x1A => s.statusWord p
  | 0x1C => c.res0
  | 0x1E => c.res1
  | 0x20 => c.res2
  | 0x22 => c.res3
  | 0x30 => q.headWords.word0
  | 0x32 => q.headWords.word1
  | 0x34 => q.headWords.word2
  | 0x36 => q.headWords.word3
  | 0x3A => BitVec.ofNat 16 q.held
  | 0x40 => (faultWords (s.shownFault p)).word0
  | 0x42 => (faultWords (s.shownFault p)).word1
  | 0x44 => (faultWords (s.shownFault p)).word2
  | 0x46 => (faultWords (s.shownFault p)).word3
  | _ => 0

end State

end Sys2Proof.Machine
end

