-- ==== Sys2Proof/Machine/CopyEngine.lean ====
section
/-! DEFINITION. The Copy Engine (R99 to R127): ring commands, selection, fetch and validation, segments, write-back, and
the end of a job. -/

namespace Sys2Proof.Machine

/-! ## Jobs -/

/-- The port of the current job. -/
def EngineState.port? : EngineState → Option Port
  | .free => none
  | .fetching j => some j.port
  | .waiting j => some j.place.port
  | .transferring j => some j.place.port
  | .writing w => some w.place.port

/-- The engine becomes FREE; job gone is reported for a port whose announcement the engine has taken (R125). -/
def State.finishJob (s : State) (p : Port) : State :=
  let s1 := s.setEngine .free
  if sel s.copy.owed p then
    (s1.setOwed p false).setSession p { s.session p with jobGone := true }
  else s1

/-- The engine requests its next claim in a state (R110). -/
def State.request (s : State) (e : EngineState) : State := (s.setEngine e).present .copy

/-! ## The ring commands -/

def ringSetupBody (s : State) (p : Port) (a : Args) : State × Reply :=
  match frameArg a.arg0 with
  | none => (s, .plain .badArg)
  | some f =>
    if !ringFits a.arg1.toNat a.arg2.toNat then (s, .plain .badArg)
    else if (s.ring p).state ≠ .unset then (s, .plain .ringState)
    else if (s.frame f).owner ≠ some p then (s, .plain .notOwner)
    else if (s.frame f).state ≠ .owned then (s, .plain .offered)
    else (s.setRing p ⟨.idle, some ⟨f, a.arg1.toNat, a.arg2.toNat⟩, 0, .ok, false⟩, .plain .ok)

/-- RING_SETUP(frame, offset, size), code 28h (R102). -/
def execRingSetup (p : Port) (s : State) : Result :=
  whileRunning s fun s => s.takeCommand p (· == 0x28) ringSetupBody

/-- The ring's fetch is in progress: from its selection until the fetch ends (R103). -/
def State.fetchInProgress (s : State) (p : Port) : Bool :=
  match s.copy.engine with
  | .fetching j => j.port == p
  | _ => false

/-- A job of the port's ring is current (R104). -/
def State.jobCurrent (s : State) (p : Port) : Bool := s.copy.engine.port? == some p

def ringKickBody (s : State) (p : Port) (_ : Args) : State × Reply :=
  let g := s.ring p
  match g.state with
  | .idle => (s.setRing p { g with state := .active }, .plain .ok)
  | .active => if s.fetchInProgress p then (s.setRing p { g with kickNoted := true }, .plain .ok) else (s, .plain .ok)
  | .stopping => (s, .plain .ok)
  | .stopped => (s, .plain .ringState)
  | .unset => (s, .plain .ringState)

/-- RING_KICK, code 29h (R103). -/
def execRingKick (p : Port) (s : State) : Result :=
  whileRunning s fun s => s.takeCommand p (· == 0x29) ringKickBody

def ringStopBody (s : State) (p : Port) (_ : Args) : State × Reply :=
  let g := s.ring p
  match g.state with
  | .active =>
    if s.jobCurrent p then (s.setRing p { g with state := .stopping, kickNoted := false }, .plain .ok)
    else (s.setRing p { g with state := .stopped }, .plain .ok)
  | .idle => (s.setRing p { g with state := .stopped }, .plain .ok)
  | .stopping => (s, .plain .ok)
  | .stopped => (s, .plain .ok)
  | .unset => (s, .plain .ringState)

/-- RING_STOP, code 2Ah (R104). -/
def execRingStop (p : Port) (s : State) : Result :=
  whileRunning s fun s => s.takeCommand p (· == 0x2A) ringStopBody

def ringRestartBody (s : State) (p : Port) (_ : Args) : State × Reply :=
  if (s.ring p).state = .stopped then (s.setRing p { s.ring p with state := .active }, .plain .ok)
  else (s, .plain .ringState)

/-- RING_RESTART, code 2Bh (R105). -/
def execRingRestart (p : Port) (s : State) : Result :=
  whileRunning s fun s => s.takeCommand p (· == 0x2B) ringRestartBody

def ringTeardownBody (s : State) (p : Port) (_ : Args) : State × Reply :=
  if (s.ring p).state = .idle ∨ (s.ring p).state = .stopped then (s.setRing p Ring.unset, .plain .ok)
  else (s, .plain .ringState)

/-- RING_TEARDOWN, code 2Ch (R106). -/
def execRingTeardown (p : Port) (s : State) : Result :=
  whileRunning s fun s => s.takeCommand p (· == 0x2C) ringTeardownBody

def ringStatusBody (s : State) (p : Port) (_ : Args) : State × Reply := (s, ringStatusReply (s.ring p))

/-- RING_STATUS, code 2Dh (R107). -/
def execRingStatus (p : Port) (s : State) : Result :=
  whileRunning s fun s => s.takeCommand p (· == 0x2D) ringStatusBody

/-! ## Selection -/

/-- The four ports in cyclic order, beginning after one (R111, R194). -/
def portsAfter (p : Port) : List Port := [p + 1, p + 2, p + 3, p]

/-- The first port after the pointer whose ring is ACTIVE and which is UP in the Session Controller's record (R111). -/
def State.nextRing (s : State) : Option Port :=
  (portsAfter s.copy.pointer).find? fun p => (s.ring p).state == .active && s.isUp p

/-- The descriptor at the head of a configured ring (R99). -/
def Ring.place (g : Ring) (c : RingConfig) (p : Port) : JobPlace := ⟨p, c.frame, c.base + g.head * 32, g.head⟩

/-- SELECTION: the pointer moves to the selected port, its job becomes current and its fetch is requested (R111). -/
def execSelection (s : State) : Result :=
  whileRunning s fun s =>
    if s.copy.engine = .free then
      match s.nextRing with
      | none => s
      | some p =>
        match (s.ring p).config with
        | none => s
        | some c => (s.setPointer p).request (.fetching ((s.ring p).place c p))
    else s

/-! ## Rights, fetch and validation -/

/-- Checks 4 to 6 of R113, from the frame records as they stand: the first that fails (R25, R115). R29, R117 and R126 have
the next segment of a reader's job fail once its source frame has passed from its owner; where the job's own port is the
heir, or has accepted the frame, the owner's rights of R25 count and the job goes on: the model's choice (log 30). -/
def State.rightsTest (s : State) (j : Job) : Option DescStatus :=
  let source := s.frame j.source
  let dest := s.frame j.dest
  let p := j.place.port
  if !((source.owner = some p ∧ (source.state = .owned ∨ source.state = .offered)) ∨ sel source.readers p = true)
  then some .noSourceRight
  else if !(dest.owner = some p ∧ dest.state = .owned) then some .noDestRight
  else if checkGenBit j.control && !(j.sourceGen == source.generation && j.destGen == dest.generation)
  then some .stale
  else none

/-- The write-back of a job that ends without moving a byte (R113). -/
def failedJob (j : JobPlace) (control : Word) (status : DescStatus) : WriteBack := ⟨j, control, status, 0, 0⟩

/-- The ring after a fetch that finds OWN 0 (R112). -/
def Ring.afterEmptyFetch (g : Ring) : Ring :=
  match g.state with
  | .active => { g with state := if g.kickNoted then .active else .idle, kickNoted := false }
  | .stopping => { g with state := .stopped, kickNoted := false }
  | _ => { g with kickNoted := false }

/-- A fetch that finds OWN 1 forms the job and validates it (R112, R113). -/
def State.validate (s : State) (j : JobPlace) (d : Descriptor) : State :=
  match d.toJob j with
  | none => s.request (.writing (failedJob j d.control .badDescriptor))
  | some job =>
    match s.rightsTest job with
    | none => s.request (.waiting job)
    | some status => s.request (.writing (failedJob j d.control status))

/-- FETCH_END: the 32 bytes of the head descriptor have been read (R112). The job of a port whose announcement the
engine has taken is abandoned here (R124). -/
def execFetchEnd (s : State) : Result :=
  whileRunning s fun s =>
    match s.copy.engine with
    | .fetching j =>
      if s.holds .copy then
        let d := readDescriptor s.mem j.addr
        if sel s.copy.owed j.port then (s.finishJob j.port).endGrant
        else if ownBit d.control then
          ((s.setRing j.port { s.ring j.port with kickNoted := false }).endGrant).validate j d
        else ((s.setRing j.port (s.ring j.port).afterEmptyFetch).endGrant).finishJob j.port
      else s
    | _ => s

/-! ## Segments -/

/-- The length of a job's next segment (R114). -/
def Job.segmentLength (j : Job) : Nat := min Config.pieceBytes (j.length - j.done)

/-- Where a job's next segment reads and writes (R114). -/
def Job.sourceAddr (j : Job) : Nat := arrayAddr j.source (j.sourceOffset + j.done)
def Job.destAddr (j : Job) : Nat := arrayAddr j.dest (j.destOffset + j.done)

/-- The segment marks of a job's two frames are set or cleared (R9). -/
def State.setMarks (s : State) (j : Job) (on : Bool) : State :=
  let s1 := s.setFrame j.source { s.frame j.source with mark := on }
  s1.setFrame j.dest { s1.frame j.dest with mark := on }

/-- The status of a job whose test fails at a segment's beginning (R115). -/
def Job.lossStatus (j : Job) (failing : DescStatus) : DescStatus := if j.done = 0 then failing else .accessLost

/-- SEGMENT_BEGIN: at the grant, the session, then the rights; the marks are set, or the grant is returned unused and
the job ends or is abandoned (R115, R124). -/
def execSegmentBegin (s : State) : Result :=
  whileRunning s fun s =>
    match s.copy.engine with
    | .waiting j =>
      if s.holds .copy then
        if !s.isUp j.place.port then (s.finishJob j.place.port).endGrant
        else
          match s.rightsTest j with
          | none => (s.setMarks j true).setEngine (.transferring j)
          | some failing =>
            s.endGrant.request (.writing ⟨j.place, j.control, j.lossStatus failing, j.done, j.sum⟩)
      else s
    | _ => s

/-- A HELD head whose mark has been cleared begins its scrub (R33, R34). -/
def State.wakeHeld (s : State) : State := if s.scrub.phase = .held then s.takeHead else s

/-- A job after a segment that moved these bytes (R116, R119). -/
def Job.advance (j : Job) (moved : List Byte) : Job :=
  { j with done := j.done + moved.length, sum := j.sum + wordSum moved }

/-- The engine after a segment: the job of a port whose announcement it has taken is abandoned; else the next segment,
or the write-back with OK, is requested (R116, R124). -/
def State.afterSegment (s : State) (j : Job) : State :=
  if sel s.copy.owed j.place.port then s.finishJob j.place.port
  else if j.done < j.length then s.request (.waiting j)
  else s.request (.writing ⟨j.place, j.control, .ok, j.done, j.sum⟩)

/-- SEGMENT_END: the segment's bytes have been moved, one at a time in ascending order; the marks are cleared, the array
is released, bytes done and the sum are raised (R116, R119). -/
def execSegmentEnd (s : State) : Result :=
  whileRunning s fun s =>
    match s.copy.engine with
    | .transferring j =>
      if s.holds .copy then
        let m := Memory.copyBytes s.mem j.sourceAddr j.destAddr j.segmentLength
        let moved := Memory.readBytes m j.destAddr j.segmentLength
        ((((s.setMem m).setMarks j false).endGrant).afterSegment (j.advance moved)).wakeHeld
      else s
    | _ => s

/-! ## Write-back -/

/-- The array after a write-back: bytes 0 and 1 and bytes 12 to 19 of the descriptor (R121, R203). -/
def WriteBack.applyTo (w : WriteBack) (m : Memory) : Memory :=
  Memory.writeBytes (Memory.writeBytes m w.place.addr w.controlBytes) (w.place.addr + 12) w.resultBytes

/-- The ring after a write-back: last status, head advanced from size − 1 to 0, and the state by the status (R121). An
UNSET ring is not changed (R124). -/
def Ring.afterWriteBack (g : Ring) (status : DescStatus) : Ring :=
  match g.config with
  | none => g
  | some c =>
    { g with
      lastStatus := status
      head := if g.head + 1 < c.size then g.head + 1 else 0
      state := if status = .ok ∧ g.state = .active then .active else .stopped }

/-- The event of a write-back (R121). -/
def WriteBack.events (w : WriteBack) : List (Port × EventRecord) :=
  if w.status = .ok then
    if notifyBit w.control then [(w.place.port, Event.copyDone w.place.index)] else []
  else [(w.place.port, Event.ringStopped w.place.index w.status)]

/-- WRITE_BACK_END: the descriptor's fields are written, the ring and its event are decided, the engine is FREE
(R121, R124). -/
def execWriteBackEnd (s : State) : Result :=
  whileRunning s fun s =>
    match s.copy.engine with
    | .writing w =>
      if s.holds .copy then
        let p := w.place.port
        ((((s.setMem (w.applyTo s.mem)).setRing p ((s.ring p).afterWriteBack w.status)).handOver .copyEngine
          w.events).finishJob p).endGrant
      else s
    | _ => s

/-! ## A port's closing -/

/-- The announcement at the engine: the port's job goes at once, with its claim withdrawn or its unused grant returned,
unless a fetch, a segment or a write-back already holds the array (R124). -/
def State.closeJob (s : State) (p : Port) : State :=
  if s.jobCurrent p then
    match s.copy.engine with
    | .transferring _ => s.setOwed p true
    | .waiting _ =>
      let s1 := if s.holds .copy then s.endGrant else s.withdrawClaim .copy
      (s1.setOwed p true).finishJob p
    | _ => if s.holds .copy then s.setOwed p true else ((s.withdrawClaim .copy).setOwed p true).finishJob p
  else s.setSession p { s.session p with jobGone := true }

/-- COPY_ENGINE_CLOSING: the ring becomes UNSET; the job is abandoned or ends its claim first; job gone is reported at
the first moment no job of the port is current (R124, R125). -/
def execCopyEngineClosing (p : Port) (s : State) : Result :=
  whileRunning s fun s =>
    if (s.session p).annCopy then
      ((s.setSession p { s.session p with annCopy := false }).setRing p Ring.unset).closeJob p
    else s

end Sys2Proof.Machine
end

