-- ==== Sys2Proof/Machine/ArbiterUnit.lean ====
section
/-! DEFINITION. The SRAM Arbiter (R193 to R195): the arrival of a claim, and the choice at the end of a grant. -/

namespace Sys2Proof.Machine

/-- The choice among waiting claims: a port's, the first in cyclic order after the last port granted; else the engine
other than the last granted where both wait; else the one that waits (R194). -/
def Arbiter.choose (a : Arbiter) : Option Claimant :=
  match (portsAfter a.lastPort).find? fun p => a.waiting.contains (.port p) with
  | some p => some (.port p)
  | none =>
    if a.waiting.contains .copy && a.waiting.contains .scrub then
      match a.lastEngine with
      | .copy => some .scrub
      | .scrub => some .copy
    else if a.waiting.contains .copy then some .copy
    else if a.waiting.contains .scrub then some .scrub
    else none

/-- A claim is granted: it holds the array, and the last port or last engine granted becomes its claimant (R193,
R194). -/
def Arbiter.grant (a : Arbiter) (c : Claimant) : Arbiter :=
  { a with
    array := .held c
    waiting := a.waiting.erase c
    lastPort := match c with
      | .port p => p
      | _ => a.lastPort
    lastEngine := match c with
      | .port _ => a.lastEngine
      | .copy => .copy
      | .scrub => .scrub }

/-- The port whose session the Copy Engine reads at the grant of a fetch or a write-back (R124). A segment's grant is
read at its beginning (R115; log 11). -/
def EngineState.readsSessionAtGrant : EngineState → Option Port
  | .fetching j => some j.port
  | .writing w => some w.place.port
  | _ => none

/-- A grant, with what the Copy Engine does at it: a fetch or write-back of a port that is not UP is returned unused and
the job abandoned, no kick noted being kept past the fetch (R99, R124, R174; logs 20 and 29). -/
def State.grantClaim (s : State) (c : Claimant) : State :=
  let s1 := s.setArbiter (s.arbiter.grant c)
  match c, s.copy.engine.readsSessionAtGrant with
  | .copy, some p => if s.isUp p then s1 else ((s1.setRing p { s.ring p with kickNoted := false }).finishJob p).endGrant
  | _, _ => s1

/-- The port's window access in flight is to a word of the frame. -/
def WindowUnit.reaches (w : WindowUnit) (f : Frame) : Bool :=
  w.reading.any (fun place => place.frame == f) || w.hold.any fun h => h.place.frame == f

/-- A claim's arrival may be taken: it is presented, and a piece does not arrive ahead of a port's access to the frame
that is scrubbed, which was checked before the frame entered SCRUBBING (R90; log 10). -/
def State.canArrive (s : State) (c : Claimant) : Bool :=
  s.arbiter.presented.contains c &&
    match c with
    | .scrub =>
      allPorts.all fun p => !(s.arbiter.presented.contains (.port p) && s.scrub.queue.head?.any (s.window p).reaches)
    | _ => true

/-- ARBITER_GRANT: the arrival of a claim, granted if the array is free and no claim waits, else waiting; or the end or
return of the grant in progress, at which one of the waiting claims is granted (R194). -/
def execArbiterGrant (h : ArbiterHappening) (s : State) : Result :=
  whileRunning s fun s =>
    match h with
    | .arrival c =>
      if s.canArrive c then
        let s1 := s.setArbiter { s.arbiter with presented := s.arbiter.presented.erase c }
        if s.arbiter.array = .free ∧ s.arbiter.waiting = [] then s1.grantClaim c
        else s1.setArbiter { s1.arbiter with waiting := s1.arbiter.waiting ++ [c] }
      else s
    | .endOfGrant =>
      if s.arbiter.array = .ended then
        match s.arbiter.choose with
        | some c => s.grantClaim c
        | none => s.setArbiter { s.arbiter with array := .free }
      else s

end Sys2Proof.Machine
end

