-- ==== Sys2Proof/Machine/WindowUnit.lean ====
section
/-! DEFINITION. The Window Units (R75 to R98) and the window accesses (R187 to R190): map commands, FAULT_CLEAR, PSEL,
the check of an access, the fault record, window reads and writes. -/

namespace Sys2Proof.Machine

/-! ## The map commands and FAULT_CLEAR -/

/-- The slot entry of a profile. -/
def WindowUnit.entry (w : WindowUnit) (profile : Fin 4) (slot : Fin 16) : Option SlotEntry :=
  sel (sel w.profiles profile) slot

/-- The unit with one slot entry replaced. -/
def WindowUnit.setEntry (w : WindowUnit) (profile : Fin 4) (slot : Fin 16) (e : Option SlotEntry) : WindowUnit :=
  { w with profiles := put w.profiles profile (put (sel w.profiles profile) slot e) }

def mapSetBody (s : State) (p : Port) (a : Args) : State × Reply :=
  match profileArg a.arg0, slotArg a.arg1, frameArg a.arg2, accessArg a.arg3 with
  | some profile, some slot, some f, some access =>
    (s.setWindow p ((s.window p).setEntry profile slot (some ⟨f, access⟩)), .plain .ok)
  | _, _, _, _ => (s, .plain .badArg)

/-- MAP_SET(profile, slot, frame, access), code 20h (R80). -/
def execMapSet (p : Port) (s : State) : Result :=
  whileRunning s fun s => s.takeCommand p (· == 0x20) mapSetBody

def mapClearBody (s : State) (p : Port) (a : Args) : State × Reply :=
  match profileArg a.arg0, slotArg a.arg1 with
  | some profile, some slot => (s.setWindow p ((s.window p).setEntry profile slot none), .plain .ok)
  | _, _ => (s, .plain .badArg)

/-- MAP_CLEAR(profile, slot), code 21h (R81). -/
def execMapClear (p : Port) (s : State) : Result :=
  whileRunning s fun s => s.takeCommand p (· == 0x21) mapClearBody

def mapReadBody (s : State) (p : Port) (a : Args) : State × Reply :=
  match profileArg a.arg0, slotArg a.arg1 with
  | some profile, some slot => (s, mapReadReply ((s.window p).entry profile slot))
  | _, _ => (s, .plain .badArg)

/-- MAP_READ(profile, slot), code 22h (R82). -/
def execMapRead (p : Port) (s : State) : Result :=
  whileRunning s fun s => s.takeCommand p (· == 0x22) mapReadBody

def faultClearBody (s : State) (p : Port) (_ : Args) : State × Reply :=
  (s.setWindow p { s.window p with fault := none }, .plain .ok)

/-- FAULT_CLEAR, code 38h (R94). -/
def execFaultClear (p : Port) (s : State) : Result :=
  whileRunning s fun s => s.takeCommand p (· == 0x38) faultClearBody

/-! ## The check of a window access -/

/-- What the check of an access decides (R86). -/
inductive AccessOutcome where
  | faulted (kind : FaultKind) (frame : Option Frame)
  | performed (place : WordPlace)
  deriving DecidableEq, Repr

/-- Orders 3 to 7 of R86, from the frame record the directory answers with (R24). -/
def checkRights (r : FrameRecord) (p : Port) (e : SlotEntry) (dir : Direction) (offset : BitVec 12) :
    AccessOutcome :=
  if r.state = .scrubbing ∨ r.state = .free then .faulted .noFrame (some e.frame)
  else if r.owner ≠ some p ∧ sel r.readers p = false then .faulted .noRight (some e.frame)
  else if dir = .write ∧ (e.access = .ro ∨ sel r.readers p = true) then .faulted .readOnly (some e.frame)
  else if dir = .write ∧ r.state = .offered then .faulted .suspended (some e.frame)
  else .performed ⟨e.frame, offset⟩

/-- The check of R86 for a port's access at A15 to A1, at this moment. -/
def State.checkAccess (s : State) (p : Port) (a : BitVec 15) (dir : Direction) : AccessOutcome :=
  if !s.isUp p then .faulted .closing none
  else
    match (s.window p).entry (s.window p).active (slotOf a) with
    | none => .faulted .unmapped none
    | some e => checkRights (s.frame e.frame) p e dir (offsetOf a)

/-- The fault record takes a fault, or counts it and keeps the first (R92). -/
def FaultRecord.noted (old : Option FaultRecord) (kind : FaultKind) (addr : Word) (f : Option Frame)
    (dir : Direction) : FaultRecord :=
  match old with
  | none => ⟨kind, addr, f, dir, 0⟩
  | some r => { r with count := saturatingNext r.count }

/-- A faulted access is handed to the fault record, with a FAULT event for the first; one of kind CLOSING is not
recorded (R92, R97). -/
def State.recordFault (s : State) (p : Port) (kind : FaultKind) (addr : Word) (f : Option Frame) (dir : Direction) :
    State :=
  if kind = .closing then s
  else
    let w := s.window p
    let s1 := s.setWindow p { w with fault := some (FaultRecord.noted w.fault kind addr f dir) }
    if w.fault.isNone then s1.handOver (.windowUnit p) [(p, Event.fault kind addr)] else s1

/-- The port's bus: the word driven, the read in flight, the delayed access and the write hold. -/
def State.setBus (s : State) (p : Port) (data : Option Word) (reading : Option WordPlace)
    (delayed : Option DelayedAccess) (hold : Option HeldWrite) : State :=
  s.setWindow p { s.window p with dataOut := data, reading := reading, delayed := delayed, hold := hold }

/-- A window read is taken and checked (R85, R187). `rdLow`: RD# is low, so the part may drive the data lines. -/
def State.takeRead (s : State) (p : Port) (a : BitVec 15) (rdLow : Bool) : State :=
  match s.checkAccess p a .read with
  | .faulted kind f =>
    (s.setBus p (if rdLow then some 0xFFFF else none) none none (s.window p).hold).recordFault p kind (byteAddr a) f
      .read
  | .performed place => (s.setBus p none (some place) none (s.window p).hold).present (.port p)

/-- A window write is taken and checked; a performed one goes to the write hold (R85, R188). -/
def State.takeWrite (s : State) (p : Port) (a : BitVec 15) (data : Word) (lo hi : Bool) : State :=
  match s.checkAccess p a .write with
  | .faulted kind f =>
    (s.setBus p none none none (s.window p).hold).recordFault p kind (byteAddr a) f .write
  | .performed place => (s.setBus p none none none (some ⟨place, data, lo, hi⟩)).present (.port p)

/-- A window cycle whose falling edge comes while the write hold is occupied waits with RDY low (R189). -/
def State.delay (s : State) (p : Port) (d : DelayedAccess) : State :=
  s.setBus p none (s.window p).reading (some d) (s.window p).hold

/-- A window read's cycle: it waits while the write hold is occupied, else it is taken at once (R187, R189). -/
def State.readCycle (s : State) (p : Port) (a : BitVec 15) : State :=
  if (s.window p).hold.isSome then s.delay p ⟨.read, a, 0, false, false⟩ else s.takeRead p a true

/-- A window write's cycle: it waits while the write hold is occupied, else it is taken at once (R188, R189). -/
def State.writeCycle (s : State) (p : Port) (a : BitVec 15) (data : Word) (lo hi : Bool) : State :=
  if (s.window p).hold.isSome then s.delay p ⟨.write, a, data, lo, hi⟩ else s.takeWrite p a data lo hi

/-- DELAYED_WINDOW_ACCESS: the held write has been carried out, and the waiting access is taken (R189). Until this step
an access that has been freed still waits: R85 and R189 take it at the moment the write is carried out, so that a change
taken between WRITE_CARRIED_OUT and this row decides its check is the model's choice (log 32), and an assertion of PRST#
between them drops it (log 23). The check reads the session state at this moment: a port that DETACH closed and that is
UP again by then has its access checked in the new session (R97, R98, R189; the model's choice, log 31). -/
def execDelayedWindowAccess (p : Port) (rdLow : Bool) (s : State) : Result :=
  whileRunning s fun s =>
    match (s.window p).delayed, (s.window p).hold with
    | some d, none =>
      match d.direction with
      | .read => s.takeRead p d.a rdLow
      | .write => s.takeWrite p d.a d.data d.lo d.hi
    | _, _ => s

/-- READ_CARRIED_OUT: the granted read takes the word, the grant ends, RDY goes high, and the word is driven if RD# is
still low (R187). -/
def execReadCarriedOut (p : Port) (rdLow : Bool) (s : State) : Result :=
  whileRunning s fun s =>
    match (s.window p).reading with
    | none => s
    | some place =>
      if s.holds (.port p) then
        (s.setBus p (if rdLow then some (Memory.readWord s.mem place.addr) else none) none (s.window p).delayed
          (s.window p).hold).endGrant
      else s

/-- WRITE_CARRIED_OUT: the granted write changes the bytes of its lanes and the hold is empty (R188, R190);
an access delayed behind it waits for DELAYED_WINDOW_ACCESS (R189; log 32). -/
def execWriteCarriedOut (p : Port) (s : State) : Result :=
  whileRunning s fun s =>
    match (s.window p).hold with
    | none => s
    | some w =>
      if s.holds (.port p) then
        ((s.setMem (Memory.writeLanes s.mem w)).setBus p (s.window p).dataOut (s.window p).reading
          (s.window p).delayed none).endGrant
      else s

/-- The data lines are released: RD# is high (R187, R191). -/
def State.releaseLines (s : State) (p : Port) : State := s.setWindow p { s.window p with dataOut := none }

/-- A write of PSEL: bits 1:0 of the value select the profile; ignored in CLOSING, and without the low lane (R78,
R165). -/
def State.writePsel (s : State) (p : Port) (value : Word) (lo : Bool) : State :=
  if lo && s.isUp p then s.setWindow p { s.window p with active := (value.extractLsb' 0 2).toFin } else s

/-- WINDOW_UNIT_CLOSING: every entry invalid, profile 0, the fault record empty (R96). The bus is not changed. -/
def execWindowUnitClosing (p : Port) (s : State) : Result :=
  whileRunning s fun s =>
    if (s.session p).annWindow then
      (s.setWindow p { s.window p with
          profiles := WindowUnit.reset.profiles, active := 0, fault := none }).setSession p
        { s.session p with annWindow := false }
    else s

end Sys2Proof.Machine
end

