-- ==== Sys2Proof/Machine/EventUnit.lean ====
section
/-! DEFINITION. The Event Unit (R128 to R149): POST, the writes of IE and EVPOP, arrivals, peer events, the closing. -/

namespace Sys2Proof.Machine

/-- The notice is placed in the target's queue as part of taking the POST, and the result reports its fate (R138 to
R140). -/
def postBody (s : State) (p : Port) (a : Args) : State × Reply :=
  match portArg a.arg0 with
  | none => (s, .plain .badArg)
  | some q =>
    if !s.isUp q then (s, .plain .peerDown)
    else
      (s.setQueue q ((s.queue q).place (Event.notice p (s.session p).number a.arg1)),
        .plain (if (s.queue q).accepts then .ok else .dropped))

/-- POST(to, value), code 30h (R138 to R140). -/
def execPost (p : Port) (s : State) : Result :=
  whileRunning s fun s => s.takeCommand p (· == 0x30) postBody

/-- A write of IE: bit 0 of the value; ignored in CLOSING, and without the low lane (R145, R165). -/
def State.writeIe (s : State) (p : Port) (value : Word) (lo : Bool) : State :=
  if lo && s.isUp p then s.setQueue p { s.queue p with enable := value.getLsbD 0 } else s

/-- A write of EVPOP with either lane removes the head, whatever the value (R132, R165). -/
def State.writeEvpop (s : State) (p : Port) (lo hi : Bool) : State :=
  if lo || hi then s.setQueue p (s.queue p).pop else s

/-- EVENT_ARRIVAL: the Event Unit takes the oldest hand-over of a producer, whole (R130, R131; log 6). -/
def execEventArrival (source : Producer) (s : State) : Result :=
  whileRunning s fun s =>
    match s.handovers.find? fun h => h.source == source with
    | none => s
    | some h => (s.setHandovers (s.handovers.erase h)).arriveAll h.events

/-- The ports other than one that are UP (R142, R143). -/
def State.otherUpPorts (s : State) (p : Port) : List Port := allPorts.filter fun q => q != p && s.isUp q

/-- EVENT_UNIT_CLOSING: the queue is emptied and the enable turned off, and PEER_DOWN goes to every other UP port
(R142, R148). An entry to UP handed over before is taken before (R144; log 9). -/
def execEventUnitClosing (p : Port) (s : State) : Result :=
  whileRunning s fun s =>
    if (s.session p).annEvent && (s.session p).peerUp.isNone then
      ((s.setQueue p EventPort.reset).setSession p { s.session p with annEvent := false }).arriveAll
        ((s.otherUpPorts p).map fun q => (q, Event.peerDown p (s.session p).number))
    else s

/-- PEER_UP: the Event Unit takes a port's entry to UP and tells every other UP port (R143, R181). -/
def execPeerUp (p : Port) (s : State) : Result :=
  whileRunning s fun s =>
    match (s.session p).peerUp with
    | none => s
    | some n =>
      (s.setSession p { s.session p with peerUp := none }).arriveAll
        ((s.otherUpPorts p).map fun q => (q, Event.peerUp p n))

end Sys2Proof.Machine
end

