-- ==== Sys2Proof/Machine/CommandUnit.lean ====
section
/-! DEFINITION. The Command Units and the control-space writes (R150 to R166). -/

namespace Sys2Proof.Machine

/-- The codes of the table of R153. -/
def knownCodes : List Byte :=
  [0x01, 0x02, 0x03, 0x04, 0x05, 0x06, 0x08, 0x09, 0x0A, 0x10, 0x11, 0x12, 0x13, 0x14, 0x20, 0x21, 0x22,
    0x28, 0x29, 0x2A, 0x2B, 0x2C, 0x2D, 0x30, 0x38, 0x3F]

/-- A code that is not in the table of R153 (R155). -/
def unknownCode (c : Byte) : Bool := !(knownCodes.contains c)

def unknownBody (s : State) (_ : Port) (_ : Args) : State × Reply := (s, .plain .unknown)

/-- UNKNOWN: the Command Unit takes a command with an unknown code itself (R155). -/
def execUnknown (p : Port) (s : State) : Result :=
  whileRunning s fun s => s.takeCommand p unknownCode unknownBody

/-- A CMD write is accepted: CMD takes the code and the pending command is formed from the arguments as they stand
(R152). -/
def CommandBlock.accepting (c : CommandBlock) (code : Byte) : CommandBlock :=
  { c with cmd := code, pendingCmd := some ⟨code, c.args, c.overrun⟩ }

/-- A CMD write is refused at once with CLOSING; it counts as a command taken, so OVERRUN turns off (R159). -/
def CommandBlock.refusing (c : CommandBlock) (code : Byte) : CommandBlock :=
  { c with cmd := code, overrun := false, result := .closing, res0 := 0, res1 := 0, res2 := 0, res3 := 0 }

/-- A CMD write is discarded as an overrun: OVERRUN is on, and stays on through the taking of the command that is pending,
whose result is shown with it (R156, R157; log 18). -/
def CommandBlock.overrunning (c : CommandBlock) : CommandBlock :=
  { c with overrun := true, pendingCmd := c.pendingCmd.map fun k => { k with clearsOverrun := false } }

/-- A CMD write: accepted, discarded as an overrun, or refused with CLOSING; without the low lane it is nothing
(R152, R156, R157, R159). -/
def State.writeCmd (s : State) (p : Port) (value : Word) (lo : Bool) : State :=
  let c := s.command p
  if !lo then s
  else if s.isUp p then
    if c.pendingCmd.isNone then s.setCommand p (c.accepting (value.extractLsb' 0 8))
    else s.setCommand p c.overrunning
  else if s.isClosing p then s.setCommand p (c.refusing (value.extractLsb' 0 8))
  else s

/-- A write of an ARG register: the bytes of the selected lanes, at once, pending command or not (R151, R165). -/
def Args.write (a : Args) (offset : Nat) (value : Word) (lo hi : Bool) : Args :=
  match offset with
  | 0x12 => { a with arg0 := mergeLanes a.arg0 value lo hi }
  | 0x14 => { a with arg1 := mergeLanes a.arg1 value lo hi }
  | 0x16 => { a with arg2 := mergeLanes a.arg2 value lo hi }
  | 0x18 => { a with arg3 := mergeLanes a.arg3 value lo hi }
  | _ => a

/-- A control write at a byte offset, by the register it reaches (R162, R165). Every other register ignores it. -/
def State.registerWrite (s : State) (p : Port) (offset : Nat) (value : Word) (lo hi : Bool) : State :=
  match offset with
  | 0x06 => s.writeIe p value lo
  | 0x08 => s.writePsel p value lo
  | 0x10 => s.writeCmd p value lo
  | 0x38 => s.writeEvpop p lo hi
  | _ => s.setCommand p { s.command p with args := (s.command p).args.write offset value lo hi }

/-- COMMAND_UNIT_CLOSING: a pending command is discarded with CLOSING (R160). -/
def execCommandUnitClosing (p : Port) (s : State) : Result :=
  whileRunning s fun s =>
    if (s.session p).annCommand then (s.discard p).setSession p { s.session p with annCommand := false } else s

end Sys2Proof.Machine
end

