-- ==== Sys2Proof/Machine/Bus.lean ====
section
/-! DEFINITION. The port buses (R185 to R192): the falling edges that R186 takes, window and control cycles alike, and
the rising edge of RD#. -/

namespace Sys2Proof.Machine

/-- A falling edge is answered by R186: nothing where the port takes no cycle or the levels address nothing, else the
access of the space addressed. -/
def State.busCycle (s : State) (p : Port) (levels : BusLevels) (window control : State → State) : State :=
  if s.cycleTaken p then
    match busAccess levels with
    | .window => window s
    | .control => control s
    | .untaken => s
  else s

/-- A control read places the register's value on D15 to D0, at once and without a claim (R191). -/
def State.controlRead (s : State) (p : Port) (a : BitVec 15) : State :=
  s.setWindow p { s.window p with dataOut := some (s.registerRead p (controlOffset a)) }

/-- A falling edge of RD#: RD# has been high, so the lines of the port's last read are released (R187, R191), and the
edge is answered by R186. -/
def State.readEdge (s : State) (p : Port) (a : BitVec 15) (levels : BusLevels) : State :=
  (s.releaseLines p).busCycle p levels (fun t => t.readCycle p a) fun t => t.controlRead p a

/-- At a falling edge of WR# with RD# high the lines of the port's last read are released (R187, R191); with RD# low
they are driven on. -/
def State.releasedUnless (s : State) (p : Port) (rdLow : Bool) : State := if rdLow then s else s.releaseLines p

/-- A falling edge of WR# at the address lines given is answered by R186. -/
def State.writeEdge (s : State) (p : Port) (a : BitVec 15) (value : Word) (lanes : Lanes) (levels : BusLevels) : State :=
  (s.releasedUnless p levels.otherLow).busCycle p levels (fun t => t.writeCycle p a value lanes.lo lanes.hi) fun t =>
    t.registerWrite p (controlOffset a) value lanes.lo lanes.hi

/-- A falling edge of WR# with CSEL# low at the register of a row, whose write is given (R186, R191). -/
def State.controlEdge (s : State) (p : Port) (levels : ControlLevels) (write : State → State) : State :=
  (s.releasedUnless p levels.rdLow).busCycle p
    { wselLow := levels.wselLow, cselLow := true, otherLow := levels.rdLow } id write

/-- WINDOW_READ: the falling edge of RD#, taken as a window read with WSEL# alone low and, as the control read has no row
of its own, as that with CSEL# alone low (R186, R187, R189, R191; log 16); or its rising edge, at which the lines are
released (R187, R191, R192; log 15). -/
def execWindowRead (p : Port) (edge : ReadEdge) (s : State) : Result :=
  whileRunning s fun s =>
    match edge with
    | .falls a levels => s.readEdge p a levels
    | .rises => s.releaseLines p

/-- WINDOW_WRITE: the falling edge of WR#, taken as a window write with WSEL# alone low (R186, R188, R189). -/
def execWindowWrite (p : Port) (a : BitVec 15) (value : Word) (lanes : Lanes) (levels : BusLevels) (s : State) : Result :=
  whileRunning s fun s => s.writeEdge p a value lanes levels

/-- REGISTER_WRITE: the falling edge of WR#, taken as a control write with CSEL# alone low (R165, R186, R191). -/
def execRegisterWrite (p : Port) (a : BitVec 15) (value : Word) (lanes : Lanes) (levels : BusLevels) (s : State) :
    Result :=
  whileRunning s fun s => s.writeEdge p a value lanes levels

/-- PSEL_WRITE: a control write of PSEL (R78, R191). -/
def execPselWrite (p : Port) (value : Word) (lanes : Lanes) (levels : ControlLevels) (s : State) : Result :=
  whileRunning s fun s => s.controlEdge p levels fun t => t.writePsel p value lanes.lo

/-- IE_WRITE: a control write of IE (R145, R191). -/
def execIeWrite (p : Port) (value : Word) (lanes : Lanes) (levels : ControlLevels) (s : State) : Result :=
  whileRunning s fun s => s.controlEdge p levels fun t => t.writeIe p value lanes.lo

/-- EVPOP: a control write of EVPOP (R132, R191), in CLOSING too (R149). -/
def execEvpop (p : Port) (_value : Word) (lanes : Lanes) (levels : ControlLevels) (s : State) : Result :=
  whileRunning s fun s => s.controlEdge p levels fun t => t.writeEvpop p lanes.lo lanes.hi

/-! The three rows COMMAND_WRITE, OVERRUN and CLOSING_REFUSAL are the three answers to one CMD write, and the state decides
which it is (log 4). -/

/-- COMMAND_WRITE: a CMD write of an UP port with PENDING off is accepted (R152). -/
def execCommandWrite (p : Port) (value : Word) (lanes : Lanes) (levels : ControlLevels) (s : State) : Result :=
  whileRunning s fun s => s.controlEdge p levels fun t => t.writeCmd p value lanes.lo

/-- OVERRUN: a CMD write of an UP port with PENDING on is discarded and turns OVERRUN on (R156, R157). -/
def execOverrun (p : Port) (value : Word) (lanes : Lanes) (levels : ControlLevels) (s : State) : Result :=
  whileRunning s fun s => s.controlEdge p levels fun t => t.writeCmd p value lanes.lo

/-- CLOSING_REFUSAL: a CMD write of a CLOSING port is refused at once with CLOSING (R159). -/
def execClosingRefusal (p : Port) (value : Word) (lanes : Lanes) (levels : ControlLevels) (s : State) : Result :=
  whileRunning s fun s => s.controlEdge p levels fun t => t.writeCmd p value lanes.lo

end Sys2Proof.Machine
end

