-- ==== Sys2Proof/Machine/Scrub.lean ====
section
/-! DEFINITION. The Scrub Engine (R31 to R46): the start of a scrub, its pieces, scrub done. -/

namespace Sys2Proof.Machine

/-- SCRUB_START: the engine, IDLE, acts on the frame that has become the head of the empty queue (R32 to R34). -/
def execScrubStart (s : State) : Result :=
  whileRunning s fun s => if s.scrub.phase = .idle ∧ s.scrub.queue ≠ [] then s.takeHead else s

/-- The zeros of one piece. -/
def pieceZeros : List Byte := List.replicate Config.pieceBytes 0

/-- The array address of piece `n` of a frame (R36). -/
def pieceAddr (f : Frame) (n : Nat) : Nat := arrayAddr f (n * Config.pieceBytes)

/-- The engine after a piece: the next is requested, or the sixteenth makes it REPORTING (R33). -/
def State.afterPiece (s : State) : State :=
  if s.scrub.pieces + 1 < 16 then (s.setScrub { s.scrub with pieces := s.scrub.pieces + 1 }).present .scrub
  else s.setScrub { s.scrub with pieces := 16, phase := .reporting }

/-- PIECE_END: the granted piece's 256 bytes are zero, the array is released, pieces done rises by 1 (R36). -/
def execPieceEnd (s : State) : Result :=
  whileRunning s fun s =>
    match s.scrub.queue with
    | [] => s
    | f :: _ =>
      if s.scrub.phase = .zeroing ∧ s.holds .scrub then
        ((s.setMem (Memory.writeBytes s.mem (pieceAddr f s.scrub.pieces) pieceZeros)).endGrant).afterPiece
      else s

/-- A frame at its scrub done without a reservation (R38, R40). -/
def FrameRecord.scrubbedFree (r : FrameRecord) : FrameRecord :=
  { r with
    state := .free, owner := none, readers := noReaders, label := 0, fallback := none, offer := none
    reservation := none }

/-- A frame at its scrub done with a reservation: it is granted to the reserver (R38, R39). -/
def FrameRecord.scrubbedFor (r : FrameRecord) (p : Port) : FrameRecord := r.scrubbedFree.granted p

/-- The directory's part of scrub done (R38 to R40). -/
def State.reportScrubbed (s : State) (f : Frame) : State :=
  match (s.frame f).reservation with
  | none => s.setFrame f (s.frame f).scrubbedFree
  | some p =>
    (s.setFrame f ((s.frame f).scrubbedFor p)).handOver .directory
      [(p, Event.claimGranted f ((s.frame f).generation + 1))]

/-- SCRUB_DONE: the directory takes the report, the frame leaves the head of the queue, and the engine takes up the new
head (R38). -/
def execScrubDone (s : State) : Result :=
  whileRunning s fun s =>
    match s.scrub.queue with
    | [] => s
    | f :: rest =>
      if s.scrub.phase = .reporting then
        ((s.reportScrubbed f).setScrub { s.scrub with queue := rest }).takeHead
      else s

end Sys2Proof.Machine
end

