-- ==== Sys2Proof/Machine/ChipReset.lean ====
section
/-! DEFINITION. Chip reset (R43, R100, R168, R197, R198): the assertion and the rising edge of RST#. -/

namespace Sys2Proof.Machine

/-- The array after the grant in progress is cut short: of the bytes it writes, those already written are a free value
for each byte (R43, R100, R197; log 14). -/
def State.cutShortMem (s : State) : Memory :=
  let done := Config.cutShort s.draws
  match s.arbiter.array with
  | .held (.port p) =>
    match (s.window p).hold with
    | none => s.mem
    | some w =>
      Memory.writeLanes s.mem { w with lo := w.lo && done 0, hi := w.hi && done 1 }
  | .held .scrub =>
    match s.scrub.phase, s.scrub.queue with
    | .zeroing, f :: _ => Memory.writeSome done 0 s.mem (pieceAddr f s.scrub.pieces) pieceZeros
    | _, _ => s.mem
  | .held .copy =>
    match s.copy.engine with
    | .transferring j =>
      Memory.writeSome done 0 s.mem j.destAddr
        (Memory.readBytes (Memory.copyBytes s.mem j.sourceAddr j.destAddr j.segmentLength) j.destAddr
          j.segmentLength)
    | .writing w =>
      Memory.writeSome done 2 (Memory.writeSome done 0 s.mem w.place.addr w.controlBytes) (w.place.addr + 12)
        w.resultBytes
    | _ => s.mem
  | _ => s.mem

/-- A Window Unit while RST# is low: RDY high, no line driven, the hold empty (R197). -/
def WindowUnit.abandoned (w : WindowUnit) : WindowUnit :=
  { w with hold := none, reading := none, delayed := none, dataOut := none }

/-- A session record with nothing on its way (R168). -/
def SessionRecord.abandoned (r : SessionRecord) : SessionRecord :=
  { r with
    annEvent := false, annCommand := false, annWindow := false, annCopy := false, jobGone := false
    disposalDone := false, peerUp := none }

/-- RST_ASSERTED: work in progress is abandoned in every block (R197). -/
def execRstAsserted (s : State) : Result :=
  .next
    (if s.rstLow then s
    else
      { s with
        rstLow := true
        mem := s.cutShortMem
        draws := s.draws + 1
        frames := mapAll (fun r => { r with mark := false }) s.frames
        dirMail := []
        windows := mapAll WindowUnit.abandoned s.windows
        copy :=
          { s.copy with
            rings := mapAll (fun g => { g with kickNoted := false }) s.copy.rings
            engine := .free
            owed := Vector.replicate 4 false }
        handovers := []
        commands := mapAll (fun c => { c with pendingCmd := none }) s.commands
        sessions := mapAll SessionRecord.abandoned s.sessions
        arbiter := { s.arbiter with array := .free, presented := [], waiting := [] } })

/-- The part at the rising edge of RST#, by the levels of QMODE and of each PRST#; the array keeps its contents (R43,
R198). -/
def State.atRisingEdge (s : State) (qmode : Bool) (prstHigh : Vector Bool 4) : State :=
  { s with
    rstLow := false
    splitQuota := qmode
    frames := Vector.replicate 64 FrameRecord.reset
    inboxes := Vector.replicate 4 []
    closingTaken := mapAll not prstHigh
    dirMail := []
    scrub := { queue := allFrames, phase := .zeroing, pieces := 0 }
    tickCount := 0
    windows := Vector.replicate 4 WindowUnit.reset
    copy :=
      { rings := Vector.replicate 4 Ring.unset, engine := .free, pointer := 3, owed := Vector.replicate 4 false }
    queues := Vector.replicate 4 EventPort.reset
    handovers := []
    commands := Vector.replicate 4 CommandBlock.reset
    sessions := mapAll SessionRecord.reset prstHigh
    arbiter := { array := .free, presented := [.scrub], waiting := [], lastPort := 3, lastEngine := .copy } }

/-- RST_RISING_EDGE: QMODE and each PRST# are sampled and every block takes its chip-reset state (R198). -/
def execRstRisingEdge (qmode : Bool) (prstHigh : Vector Bool 4) (s : State) : Result :=
  .next (if s.rstLow then s.atRisingEdge qmode prstHigh else s)

end Sys2Proof.Machine
end

