-- ==== Sys2Proof/Machine/Directory.lean ====
section
/-! DEFINITION. The frame commands of the Frame Directory (R13 to R22): CLAIM, CLAIM_ANY, RELEASE, LABEL, FALLBACK,
FRAME_INFO, LEND, REVOKE, DROP. -/

namespace Sys2Proof.Machine

/-! ## CLAIM and CLAIM_ANY -/

/-- CLAIM of a frame, by its state and the caller's position (R13). -/
def claimFrame (s : State) (p : Port) (f : Frame) (reserve : Bool) : State × Reply :=
  let r := s.frame f
  match r.state with
  | .free =>
    if s.quotaFull p then (s, .plain .quota)
    else (s.setFrame f (r.granted p), ⟨.ok, lowByte (r.generation + 1), 0, 0, 0⟩)
  | .owned | .offered =>
    if r.owner = some p then (s, ⟨.ok, lowByte r.generation, 0, 0, 0⟩) else (s, .plain .taken)
  | .scrubbing =>
    match r.reservation with
    | some q =>
      if q = p then (s, ⟨.queued, lowByte r.generation, 0, 0, 0⟩)
      else if reserve then (s, .plain .reserved) else (s, .plain .scrubbing)
    | none =>
      if reserve then
        if s.quotaFull p then (s, .plain .quota)
        else (s.setFrame f { r with reservation := some p }, ⟨.queued, lowByte r.generation, 0, 0, 0⟩)
      else (s, .plain .scrubbing)

def claimBody (s : State) (p : Port) (a : Args) : State × Reply :=
  match frameArg a.arg0, flagArg a.arg1 with
  | some f, some reserve => claimFrame s p f reserve
  | _, _ => (s, .plain .badArg)

/-- CLAIM(frame, reserve), code 01h (R13). -/
def execClaim (p : Port) (s : State) : Result :=
  whileRunning s fun s => s.takeCommand p (· == 0x01) claimBody

/-- The lowest-numbered FREE frame (R15). -/
def State.lowestFree (s : State) : Option Frame := allFrames.find? fun f => (s.frame f).state == .free

def claimAnyBody (s : State) (p : Port) (_ : Args) : State × Reply :=
  if s.quotaFull p then (s, .plain .quota)
  else
    match s.lowestFree with
    | none => (s, .plain .noFree)
    | some f =>
      (s.setFrame f ((s.frame f).granted p),
        ⟨.ok, lowByte (frameField (some f)), lowByte ((s.frame f).generation + 1), 0, 0⟩)

/-- CLAIM_ANY, code 02h (R15). -/
def execClaimAny (p : Port) (s : State) : Result :=
  whileRunning s fun s => s.takeCommand p (· == 0x02) claimAnyBody

/-! ## RELEASE, LABEL, FALLBACK, FRAME_INFO -/

/-- The frame is the ring frame of a port whose ring is not UNSET (R16, R53, R101). -/
def State.isRingFrame (s : State) (p : Port) (f : Frame) : Bool :=
  decide ((s.ring p).state ≠ .unset) && decide ((s.ring p).config.map RingConfig.frame = some f)

def releaseBody (s : State) (p : Port) (a : Args) : State × Reply :=
  match frameArg a.arg0 with
  | none => (s, .plain .badArg)
  | some f =>
    let r := s.frame f
    if r.owner ≠ some p then (s, .plain .notOwner)
    else if r.state = .offered then (s, .plain .offered)
    else if s.isRingFrame p f then (s, .plain .ringFrame)
    else ((s.sendToScrub f).handOver .directory (revokeReaders r f p none .released), .plain .ok)

/-- RELEASE(frame), code 03h (R16). -/
def execRelease (p : Port) (s : State) : Result :=
  whileRunning s fun s => s.takeCommand p (· == 0x03) releaseBody

def labelBody (s : State) (p : Port) (a : Args) : State × Reply :=
  match frameArg a.arg0 with
  | none => (s, .plain .badArg)
  | some f =>
    let r := s.frame f
    if r.owner ≠ some p then (s, .plain .notOwner)
    else if r.state = .offered then (s, .plain .offered)
    else (s.setFrame f { r with label := a.arg1 }, .plain .ok)

/-- LABEL(frame, value), code 04h (R17). -/
def execLabel (p : Port) (s : State) : Result :=
  whileRunning s fun s => s.takeCommand p (· == 0x04) labelBody

def fallbackBody (s : State) (p : Port) (a : Args) : State × Reply :=
  match frameArg a.arg0, fallbackArg a.arg1 with
  | some f, some heir =>
    let r := s.frame f
    if r.owner ≠ some p then (s, .plain .notOwner)
    else
      match heir with
      | none => (s.setFrame f { r with fallback := none }, .plain .ok)
      | some q =>
        if q = p then (s, .plain .self)
        else if !s.dirUp q then (s, .plain .peerDown)
        else (s.setFrame f { r with fallback := some q }, .plain .ok)
  | _, _ => (s, .plain .badArg)

/-- FALLBACK(frame, port), code 05h (R18). -/
def execFallback (p : Port) (s : State) : Result :=
  whileRunning s fun s => s.takeCommand p (· == 0x05) fallbackBody

def frameInfoBody (s : State) (_ : Port) (a : Args) : State × Reply :=
  match frameArg a.arg0 with
  | none => (s, .plain .badArg)
  | some f => (s, frameInfoReply (s.frame f))

/-- FRAME_INFO(frame), code 06h (R19). -/
def execFrameInfo (p : Port) (s : State) : Result :=
  whileRunning s fun s => s.takeCommand p (· == 0x06) frameInfoBody

/-! ## LEND, REVOKE, DROP -/

def lendBody (s : State) (p : Port) (a : Args) : State × Reply :=
  match frameArg a.arg0, portArg a.arg1 with
  | some f, some q =>
    let r := s.frame f
    if r.owner ≠ some p then (s, .plain .notOwner)
    else if q = p then (s, .plain .self)
    else if !s.dirUp q then (s, .plain .peerDown)
    else if sel r.readers q then (s, .plain .ok)
    else
      ((s.setFrame f { r with readers := put r.readers q true }).handOver .directory
        [(q, Event.readGranted p f r.generation)], .plain .ok)
  | _, _ => (s, .plain .badArg)

/-- LEND(frame, port), code 08h (R20). -/
def execLend (p : Port) (s : State) : Result :=
  whileRunning s fun s => s.takeCommand p (· == 0x08) lendBody

def revokeBody (s : State) (p : Port) (a : Args) : State × Reply :=
  match frameArg a.arg0, portArg a.arg1 with
  | some f, some q =>
    let r := s.frame f
    if r.owner ≠ some p then (s, .plain .notOwner)
    else if !sel r.readers q then (s, .plain .notFound)
    else
      ((s.setFrame f { r with readers := put r.readers q false }).handOver .directory
        [(q, Event.readRevoked p f .revoked)], .plain .ok)
  | _, _ => (s, .plain .badArg)

/-- REVOKE(frame, port), code 09h (R21). -/
def execRevoke (p : Port) (s : State) : Result :=
  whileRunning s fun s => s.takeCommand p (· == 0x09) revokeBody

def dropBody (s : State) (p : Port) (a : Args) : State × Reply :=
  match frameArg a.arg0 with
  | none => (s, .plain .badArg)
  | some f =>
    let r := s.frame f
    if !sel r.readers p then (s, .plain .notFound)
    else (s.setFrame f { r with readers := put r.readers p false }, .plain .ok)

/-- DROP(frame), code 0Ah (R22). -/
def execDrop (p : Port) (s : State) : Result :=
  whileRunning s fun s => s.takeCommand p (· == 0x0A) dropBody

end Sys2Proof.Machine
end

