-- ==== Sys2Proof/Machine/Offers.lean ====
section
/-! DEFINITION. The offer protocol (R47 to R74): OFFER, WITHDRAW, ACCEPT, DECLINE, PEEK, ticks and expiry. -/

namespace Sys2Proof.Machine

/-- A held offer is URGENT. -/
def State.isUrgent (s : State) (f : Frame) : Bool := (s.frame f).offer.any fun o => o.cls == .urgent

/-- An inbox with one more offer: an URGENT one directly behind the last URGENT one held, a NORMAL one at the tail
(R48). -/
def placeInInbox (urgent : Frame → Bool) (inbox : List Frame) (f : Frame) : OfferClass → List Frame
  | .urgent => inbox.takeWhile urgent ++ f :: inbox.dropWhile urgent
  | .normal => inbox ++ [f]

/-- An OFFER is taken: the record is created, the frame becomes OFFERED and the offer enters the recipient's inbox
(R54). -/
def State.makeOffer (s : State) (o : Offer) : State :=
  (s.setFrame o.frame { s.frame o.frame with state := .offered, offer := some o }).setInbox o.recipient
    (placeInInbox s.isUrgent (s.inbox o.recipient) o.frame o.cls)

def offerBody (s : State) (p : Port) (a : Args) : State × Reply :=
  match frameArg a.arg0, portArg a.arg1, classArg a.arg2 with
  | some f, some q, some c =>
    let r := s.frame f
    if r.owner ≠ some p then (s, .plain .notOwner)
    else if r.state = .offered then (s, .plain .offered)
    else if q = p then (s, .plain .self)
    else if !s.dirUp q then (s, .plain .peerDown)
    else if s.isRingFrame p f then (s, .plain .ringFrame)
    else if Config.inboxSize ≤ (s.inbox q).length then (s, .plain .inboxFull)
    else
      ((s.makeOffer ⟨f, p, q, c, a.arg3, a.arg3⟩).handOver .directory
        [(q, Event.offerArrived p f r.generation r.label c)], .plain .ok)
  | _, _, _ => (s, .plain .badArg)

/-- OFFER(frame, to, class, timeout), code 10h (R53, R54). -/
def execOffer (p : Port) (s : State) : Result :=
  whileRunning s fun s => s.takeCommand p (· == 0x10) offerBody

def withdrawBody (s : State) (p : Port) (a : Args) : State × Reply :=
  match frameArg a.arg0 with
  | none => (s, .plain .badArg)
  | some f =>
    if (s.frame f).owner ≠ some p then (s, .plain .notOwner)
    else
      match (s.frame f).offer with
      | none => (s, .plain .notOffered)
      | some o =>
        ((s.endOffer f).handOver .directory [(o.recipient, Event.offerCancelled p f .withdrawn)], .plain .ok)

/-- WITHDRAW(frame), code 11h (R56). -/
def execWithdraw (p : Port) (s : State) : Result :=
  whileRunning s fun s => s.takeCommand p (· == 0x11) withdrawBody

/-- The offer of a frame that a port's inbox holds (R57, R60). -/
def State.inboxOffer (s : State) (p : Port) (f : Frame) : Option Offer :=
  if (s.inbox p).contains f then (s.frame f).offer.filter fun o => o.recipient == p else none

def acceptBody (s : State) (p : Port) (a : Args) : State × Reply :=
  match frameArg a.arg0 with
  | none => (s, .plain .badArg)
  | some f =>
    match s.inboxOffer p f with
    | none => (s, .plain .notFound)
    | some o =>
      if s.quotaFull p then (s, .plain .quota)
      else
        let r := s.frame f
        (((s.setFrame f (r.passed p)).leaveInbox o).handOver .directory
            (revokeReaders r f o.offerer (some p) .ownerChanged ++
              [(o.offerer, Event.offerAccepted p f (r.generation + 1))]),
          ⟨.ok, lowByte (r.generation + 1), 0, 0, 0⟩)

/-- ACCEPT(frame), code 12h (R57, R58). -/
def execAccept (p : Port) (s : State) : Result :=
  whileRunning s fun s => s.takeCommand p (· == 0x12) acceptBody

def declineBody (s : State) (p : Port) (a : Args) : State × Reply :=
  match frameArg a.arg0 with
  | none => (s, .plain .badArg)
  | some f =>
    match s.inboxOffer p f with
    | none => (s, .plain .notFound)
    | some o => ((s.endOffer f).handOver .directory [(o.offerer, Event.offerDeclined p f)], .plain .ok)

/-- DECLINE(frame), code 13h (R60). -/
def execDecline (p : Port) (s : State) : Result :=
  whileRunning s fun s => s.takeCommand p (· == 0x13) declineBody

def peekBody (s : State) (p : Port) (a : Args) : State × Reply :=
  match indexArg a.arg0 with
  | none => (s, .plain .badArg)
  | some i =>
    match (s.inbox p)[i]? with
    | none => (s, .plain .notFound)
    | some f =>
      match (s.frame f).offer with
      | none => (s, .plain .notFound)
      | some o => (s, peekReply o (s.frame f))

/-- PEEK(index), code 14h (R61). -/
def execPeek (p : Port) (s : State) : Result :=
  whileRunning s fun s => s.takeCommand p (· == 0x14) peekBody

/-! ## Ticks and expiry -/

/-- The events of one expiry (R52). -/
def expiryEvents (o : Offer) : List (Port × EventRecord) :=
  [(o.offerer, Event.offerExpired o.recipient o.frame),
    (o.recipient, Event.offerCancelled o.offerer o.frame .expired)]

/-- A tick reaches one frame: an offer with a timeout is lowered by 1 and, at 0, expires (R51, R52). -/
def tickFrame (acc : State × List (Port × EventRecord)) (f : Frame) : State × List (Port × EventRecord) :=
  match (acc.1.frame f).offer with
  | none => acc
  | some o =>
    if o.timeout = 0 then acc
    else if o.remaining.toNat ≤ 1 then (acc.1.endOffer f, acc.2 ++ expiryEvents o)
    else
      (acc.1.setFrame f { acc.1.frame f with offer := some { o with remaining := o.remaining - 1 } }, acc.2)

/-- A tick is taken at the directory, whole: every offer with a timeout is reached, and those that reach 0 expire in
ascending frame number (R50 to R52). -/
def State.takeTick (s : State) : State :=
  let acc := allFrames.foldl tickFrame (s, [])
  acc.1.handOver .directory acc.2

/-- EXPIRY of one frame's offer found at 0 ticks remaining (R52). A tick expires the offers it lowers to 0 itself
(R51; log 12). -/
def execExpiry (f : Frame) (s : State) : Result :=
  whileRunning s fun s =>
    match (s.frame f).offer with
    | none => s
    | some o =>
      if o.timeout ≠ 0 ∧ o.remaining = 0 then (s.endOffer f).handOver .directory (expiryEvents o) else s

/-- One REFCLK period passes; the 25 000th since the last tick gives a tick (R199; log 13). -/
def State.refclk (s : State) : State :=
  if s.rstLow then s
  else if s.tickCount + 1 < Config.periodsPerTick then s.setTickCount (s.tickCount + 1)
  else (s.setTickCount 0).takeTick

/-- The periods that are left before the 25 000th pass, with no happening in them (R199; log 13). -/
def State.awaitTick (s : State) : State := s.setTickCount (Config.periodsPerTick - 1)

/-- TICK: the Tick Timer comes to its 25 000th period and the tick of that period is taken, so ticks come at each
25 000th period and at no other (R50, R199; log 13). -/
def execTick (s : State) : Result := whileRunning s fun s => s.awaitTick.refclk

end Sys2Proof.Machine
end

