-- ==== Sys2Proof/Machine/Sessions.lean ====
section
/-! DEFINITION. Sessions and teardown (R167 to R184): DETACH, PRST#, and the directory's part in a closing (R26 to R30,
R67, R68). -/

namespace Sys2Proof.Machine

def detachBody (s : State) (p : Port) (_ : Args) : State × Reply := (s.enterClosing p true, .plain .ok)

/-- DETACH, code 3Fh: the port enters CLOSING with rejoin on (R161, R171). -/
def execDetach (p : Port) (s : State) : Result :=
  whileRunning s fun s => s.takeCommand p (· == 0x3F) detachBody

/-! ## PRST# -/

/-- A window bus at an assertion of PRST#: an ended read's lines are released, and an access that waits behind the write
hold is not taken; it goes at once, since RDY is high with PRST# low and a held write (R189, R192; log 23). One that the
held write's carrying out has freed and that DELAYED_WINDOW_ACCESS has not yet taken goes as well: the model's choice
(log 23). -/
def WindowUnit.prstAsserted (w : WindowUnit) : WindowUnit := { w with dataOut := none, delayed := none }

/-- The session at an assertion of PRST#: an UP port enters CLOSING with rejoin off; in CLOSING rejoin becomes off
(R169). -/
def State.assertPrst (s : State) (p : Port) : State :=
  match (s.session p).state with
  | .up => s.enterClosing p false
  | .closing _ step => s.setSession p { s.session p with state := .closing false step }
  | .down => s

/-- The session at a release of PRST#: a DOWN port enters UP; in CLOSING rejoin becomes on (R170). -/
def State.releasePrst (s : State) (p : Port) : State :=
  match (s.session p).state with
  | .down => s.enterUp p
  | .closing _ step => s.setSession p { s.session p with state := .closing true step }
  | .up => s

/-- The level of PRST# as last taken. -/
def State.setPrst (s : State) (p : Port) (low : Bool) : State :=
  s.setSession p { s.session p with prstLow := low }

/-- PRST_ASSERTED: a change of PRST# from high to low (R169). -/
def execPrstAsserted (p : Port) (s : State) : Result :=
  whileRunning s fun s =>
    if (s.session p).prstLow then s
    else ((s.setPrst p true).assertPrst p).setWindow p (s.window p).prstAsserted

/-- PRST_RELEASED: a change of PRST# from low to high (R170). -/
def execPrstReleased (p : Port) (s : State) : Result :=
  whileRunning s fun s => if (s.session p).prstLow then (s.setPrst p false).releasePrst p else s

/-! ## The directory's closing reaction -/

/-- A frame record at a port's closing: its grant, the fallback naming it and its reservation go (R26). -/
def FrameRecord.withoutPort (r : FrameRecord) (p : Port) : FrameRecord :=
  { r with
    readers := put r.readers p false
    fallback := r.fallback.filter fun q => q != p
    reservation := r.reservation.filter fun q => q != p }

/-- An offer in the closing port's inbox returns to its offerer (R67). -/
def returnOffer (p : Port) (acc : State × List (Port × EventRecord)) (f : Frame) :
    State × List (Port × EventRecord) :=
  match (acc.1.frame f).offer with
  | none => acc
  | some o => (acc.1.endOffer f, acc.2 ++ [(o.offerer, Event.offerReturned p f)])

/-- An offer the closing port has made is cancelled (R68). -/
def cancelOffer (p : Port) (acc : State × List (Port × EventRecord)) (f : Frame) :
    State × List (Port × EventRecord) :=
  match (acc.1.frame f).offer with
  | none => acc
  | some o =>
    if o.offerer = p then
      (acc.1.endOffer f, acc.2 ++ [(o.recipient, Event.offerCancelled p f .peerDown)])
    else acc

/-- The announcement at the directory: grants, fallbacks and reservations, then the inbox from head to tail, then the
outgoing offers in ascending frame number; the port is not UP from here (R26, R67, R68, R69). -/
def State.closeAtDirectory (s : State) (p : Port) : State :=
  let s1 := (s.setFrames (mapAll (fun r => r.withoutPort p) s.frames)).setClosingTaken p true
  let returned := (s1.inbox p).foldl (returnOffer p) (s1, [])
  let settled := allFrames.foldl (cancelOffer p) returned
  settled.1.handOver .directory settled.2

/-- DIRECTORY_CLOSING: the directory takes the announcement, in the order of the Session Controller's requests (R26,
R173). -/
def execDirectoryClosing (p : Port) (s : State) : Result :=
  whileRunning s fun s =>
    match s.dirMail with
    | .closing q :: rest => if q = p then (s.setDirMail rest).closeAtDirectory p else s
    | _ => s

/-! ## Teardown -/

/-- JOB_GONE: in AWAIT_JOB the report moves the teardown on, and the disposal is requested (R178). -/
def execJobGone (p : Port) (s : State) : Result :=
  whileRunning s fun s =>
    if (s.session p).jobGone then
      match (s.session p).state with
      | .closing rejoin .awaitJob =>
        (s.setSession p { s.session p with
            state := .closing rejoin .awaitDisposal, jobGone := false }).setDirMail (s.dirMail ++ [.dispose p])
      | _ => s
    else s

/-- The port a frame is inherited by at disposal, if any: its fallback, UP, and in SPLIT mode below its quota (R28). -/
def State.heir (s : State) (r : FrameRecord) : Option Port :=
  r.fallback.filter fun q => s.dirUp q && !s.quotaFull q

/-- The disposal of one frame of the closing port (R28). -/
def disposeFrame (p : Port) (acc : State × List (Port × EventRecord)) (f : Frame) :
    State × List (Port × EventRecord) :=
  let r := acc.1.frame f
  if r.owner ≠ some p then acc
  else
    match acc.1.heir r with
    | some q =>
      (acc.1.setFrame f (r.passed q),
        acc.2 ++ revokeReaders r f p (some q) .ownerChanged ++
          [(q, Event.frameInherited p f (r.generation + 1) r.label)])
    | none => (acc.1.sendToScrub f, acc.2 ++ revokeReaders r f p none .released)

/-- The disposal of a port's frames, whole, in ascending frame number, and the report at its end (R28). -/
def State.disposeAll (s : State) (p : Port) : State :=
  let acc := allFrames.foldl (disposeFrame p) (s, [])
  let s1 := acc.1.handOver .directory acc.2
  s1.setSession p { s1.session p with disposalDone := true }

/-- DISPOSAL: the directory takes the request after the announcement of the same closing (R28, R173). -/
def execDisposal (p : Port) (s : State) : Result :=
  whileRunning s fun s =>
    match s.dirMail with
    | .dispose q :: rest =>
      if q = p ∧ sel s.closingTaken p = true then (s.setDirMail rest).disposeAll p else s
    | _ => s

/-- Every block has taken the port's closing. That a completion waits for the Event, Command and Window Units too, as R180
and R181 ask, and not for the Copy Engine and the directory alone, as R178 and R182 read, is the model's choice (log 8). -/
def State.closingSettled (s : State) (p : Port) : Bool :=
  let r := s.session p
  !r.annEvent && !r.annCommand && !r.annWindow && !r.annCopy
    && !(s.dirMail.contains (.closing p)) && !(s.dirMail.contains (.dispose p))

/-- DISPOSAL_DONE: the teardown completes; rejoin decides between UP and DOWN (R179). -/
def execDisposalDone (p : Port) (s : State) : Result :=
  whileRunning s fun s =>
    if (s.session p).disposalDone && s.closingSettled p then
      match (s.session p).state with
      | .closing rejoin .awaitDisposal =>
        let s1 := s.setSession p { s.session p with state := .down, disposalDone := false }
        if rejoin then s1.enterUp p else s1
      | _ => s
    else s

end Sys2Proof.Machine
end

