-- ==== Sys2Proof/Machine/Dispatch.lean ====
section
/-! DEFINITION. One arm for each command: what taking it does to everything but the queue. -/

namespace Sys2Proof.Machine

def exec (i : Instr) (s : State) : Host.Outcome State Fault Refusal :=
  match i with
  | .claim p => Sys2Proof.Machine.execClaim p s
  | .claimAny p => Sys2Proof.Machine.execClaimAny p s
  | .release p => Sys2Proof.Machine.execRelease p s
  | .label p => Sys2Proof.Machine.execLabel p s
  | .fallback p => Sys2Proof.Machine.execFallback p s
  | .frameInfo p => Sys2Proof.Machine.execFrameInfo p s
  | .lend p => Sys2Proof.Machine.execLend p s
  | .revoke p => Sys2Proof.Machine.execRevoke p s
  | .drop p => Sys2Proof.Machine.execDrop p s
  | .offer p => Sys2Proof.Machine.execOffer p s
  | .withdraw p => Sys2Proof.Machine.execWithdraw p s
  | .accept p => Sys2Proof.Machine.execAccept p s
  | .decline p => Sys2Proof.Machine.execDecline p s
  | .peek p => Sys2Proof.Machine.execPeek p s
  | .mapSet p => Sys2Proof.Machine.execMapSet p s
  | .mapClear p => Sys2Proof.Machine.execMapClear p s
  | .mapRead p => Sys2Proof.Machine.execMapRead p s
  | .faultClear p => Sys2Proof.Machine.execFaultClear p s
  | .ringSetup p => Sys2Proof.Machine.execRingSetup p s
  | .ringKick p => Sys2Proof.Machine.execRingKick p s
  | .ringStop p => Sys2Proof.Machine.execRingStop p s
  | .ringRestart p => Sys2Proof.Machine.execRingRestart p s
  | .ringTeardown p => Sys2Proof.Machine.execRingTeardown p s
  | .ringStatus p => Sys2Proof.Machine.execRingStatus p s
  | .post p => Sys2Proof.Machine.execPost p s
  | .detach p => Sys2Proof.Machine.execDetach p s
  | .unknown p => Sys2Proof.Machine.execUnknown p s
  | .overrun p value lanes levels => Sys2Proof.Machine.execOverrun p value lanes levels s
  | .closingRefusal p value lanes levels => Sys2Proof.Machine.execClosingRefusal p value lanes levels s
  | .pselWrite p value lanes levels => Sys2Proof.Machine.execPselWrite p value lanes levels s
  | .ieWrite p value lanes levels => Sys2Proof.Machine.execIeWrite p value lanes levels s
  | .evpop p value lanes levels => Sys2Proof.Machine.execEvpop p value lanes levels s
  | .registerWrite p a value lanes levels => Sys2Proof.Machine.execRegisterWrite p a value lanes levels s
  | .windowRead p edge => Sys2Proof.Machine.execWindowRead p edge s
  | .windowWrite p a value lanes levels => Sys2Proof.Machine.execWindowWrite p a value lanes levels s
  | .delayedWindowAccess p rdLow => Sys2Proof.Machine.execDelayedWindowAccess p rdLow s
  | .readCarriedOut p rdLow => Sys2Proof.Machine.execReadCarriedOut p rdLow s
  | .writeCarriedOut p => Sys2Proof.Machine.execWriteCarriedOut p s
  | .arbiterGrant h => Sys2Proof.Machine.execArbiterGrant h s
  | .scrubStart => Sys2Proof.Machine.execScrubStart s
  | .pieceEnd => Sys2Proof.Machine.execPieceEnd s
  | .scrubDone => Sys2Proof.Machine.execScrubDone s
  | .tick => Sys2Proof.Machine.execTick s
  | .expiry f => Sys2Proof.Machine.execExpiry f s
  | .selection => Sys2Proof.Machine.execSelection s
  | .fetchEnd => Sys2Proof.Machine.execFetchEnd s
  | .segmentBegin => Sys2Proof.Machine.execSegmentBegin s
  | .segmentEnd => Sys2Proof.Machine.execSegmentEnd s
  | .writeBackEnd => Sys2Proof.Machine.execWriteBackEnd s
  | .eventArrival source => Sys2Proof.Machine.execEventArrival source s
  | .prstAsserted p => Sys2Proof.Machine.execPrstAsserted p s
  | .prstReleased p => Sys2Proof.Machine.execPrstReleased p s
  | .eventUnitClosing p => Sys2Proof.Machine.execEventUnitClosing p s
  | .commandUnitClosing p => Sys2Proof.Machine.execCommandUnitClosing p s
  | .windowUnitClosing p => Sys2Proof.Machine.execWindowUnitClosing p s
  | .directoryClosing p => Sys2Proof.Machine.execDirectoryClosing p s
  | .copyEngineClosing p => Sys2Proof.Machine.execCopyEngineClosing p s
  | .jobGone p => Sys2Proof.Machine.execJobGone p s
  | .disposal p => Sys2Proof.Machine.execDisposal p s
  | .disposalDone p => Sys2Proof.Machine.execDisposalDone p s
  | .peerUp p => Sys2Proof.Machine.execPeerUp p s
  | .rstAsserted => Sys2Proof.Machine.execRstAsserted s
  | .rstRisingEdge qmode prstHigh => Sys2Proof.Machine.execRstRisingEdge qmode prstHigh s
  | .commandWrite p value lanes levels => Sys2Proof.Machine.execCommandWrite p value lanes levels s

end Sys2Proof.Machine
end

