-- ==== Sys2Proof/Machine/Step.lean ====
section
/-! DEFINITION. One step: the command at the front of the queue is taken, or, with none waiting, one REFCLK period
passes. -/

namespace Sys2Proof.Machine

/-- Takes the front of the queue, first in, first out; an empty queue lets one REFCLK period pass (log 13). -/
def step (s : State) : Host.Outcome State Fault Refusal :=
  match s.pending with
  | [] => .next s.refclk
  | c :: rest => exec c (s.setPending rest)

/-- The state with the command a table word spells at the front of its queue; the same state where it spells none. -/
def State.withFetchWord (s : State) (nbits w : Nat) : State :=
  match decodeTableWord nbits w with
  | some c => s.setPending (c :: s.pending)
  | none => s

end Sys2Proof.Machine
end

