-- ==== Sys2Proof/Safety.lean ====
section
/-! DEFINITION. What counts as a legal state of the part: the conditions that the rules of spec/ give between the pieces
of its state, block by block. The statements of Certificates/ are written with them. -/

namespace Sys2Proof.Machine

/-! ## Parts of the state -/

/-- The rejoin flag, present in CLOSING (R167). -/
def SessionState.rejoin? : SessionState → Option Bool
  | .closing rejoin _ => some rejoin
  | _ => none

/-- The teardown step, present in CLOSING (R167). -/
def SessionState.step? : SessionState → Option TeardownStep
  | .closing _ step => some step
  | _ => none

/-- The job whose segment is in flight (R9, R110). -/
def EngineState.segment? : EngineState → Option Job
  | .transferring j => some j
  | _ => none

/-- The job that is past its validation and not yet ended (R110). -/
def EngineState.job? : EngineState → Option Job
  | .waiting j => some j
  | .transferring j => some j
  | _ => none

/-- Where the current job's descriptor lies. -/
def EngineState.place? : EngineState → Option JobPlace
  | .free => none
  | .fetching j => some j
  | .waiting j => some j.place
  | .transferring j => some j.place
  | .writing w => some w.place

/-! ## A command and its reply -/

/-- A port's command is there to be taken: RST# high, the port UP, this command pending (R152, R160). -/
abbrev State.Ready (s : State) (p : Port) (code : Byte) (a : Args) (clears : Bool) : Prop :=
  s.rstLow = false ∧ (s.session p).state = .up ∧ (s.command p).pendingCmd = some ⟨code, a, clears⟩

/-- The port's command block has its result: PENDING off, the code and the four words written, OVERRUN off where the
command was written after it turned on (R154, R156). -/
def State.replied (s : State) (p : Port) (clears : Bool) (code : ResultCode) (w0 w1 w2 w3 : Word) : State :=
  { s with
    commands := put s.commands p { s.command p with
      pendingCmd := none, overrun := (s.command p).overrun && !clears, result := code
      res0 := w0, res1 := w1, res2 := w2, res3 := w3 } }

/-- A command is refused: only its port's command block changes, to the code with RES0 to RES3 0000h (R10, R154). -/
abbrev Refuses (i : Instr) (s : State) (p : Port) (clears : Bool) (code : ResultCode) : Prop :=
  exec i s = .next (s.replied p clears code 0 0 0 0)

/-- A command is taken: the state is as given, with the reply in its port's command block. -/
abbrev Replies (i : Instr) (s changed : State) (p : Port) (clears : Bool) (code : ResultCode)
    (w0 w1 w2 w3 : Word) : Prop :=
  exec i s = .next { changed with commands := (s.replied p clears code w0 w1 w2 w3).commands }

/-- In SPLIT mode the port's quota count is 16 (R11). -/
abbrev State.AtQuota (s : State) (p : Port) : Prop := s.splitQuota = true ∧ 16 ≤ s.quotaCount p

/-- Events handed to the Event Unit by the directory, which takes them at EVENT_ARRIVAL (R73, R131). -/
def State.withEvents (s : State) (source : Producer) (events : List (Port × EventRecord)) : State :=
  if events = [] then s else { s with handovers := s.handovers ++ [⟨source, events⟩] }

/-- A row of spec/opcode_table.json in which an owning block takes a command, by the command's code (R153). -/
def ownerRows : List (Byte × (Port → Instr)) :=
  [(0x01, .claim), (0x02, .claimAny), (0x03, .release), (0x04, .label), (0x05, .fallback), (0x06, .frameInfo),
    (0x08, .lend), (0x09, .revoke), (0x0A, .drop), (0x10, .offer), (0x11, .withdraw), (0x12, .accept),
    (0x13, .decline), (0x14, .peek), (0x20, .mapSet), (0x21, .mapClear), (0x22, .mapRead), (0x28, .ringSetup),
    (0x29, .ringKick), (0x2A, .ringStop), (0x2B, .ringRestart), (0x2C, .ringTeardown), (0x2D, .ringStatus),
    (0x30, .post), (0x38, .faultClear), (0x3F, .detach)]

/-! ## Bus cycles, rights, the placing of an event -/

/-- The port takes a cycle at a falling edge of one of its strobes: the first three rows of R186's table. -/
abbrev State.Taken (s : State) (p : Port) : Prop :=
  s.rstLow = false ∧ (s.session p).state ≠ .down ∧ (s.session p).prstLow = false ∧ (s.window p).reading = none ∧
    (s.window p).delayed = none

/-- The levels of a window access and of a control access at its strobe's falling edge: its select alone low, and the other
strobe high (R186). -/
def windowLevels : BusLevels := { wselLow := true, cselLow := false, otherLow := false }
def controlLevels : BusLevels := { wselLow := false, cselLow := true, otherLow := false }

/-- The levels of a control write of one register: WSEL# and RD# high (R186). -/
def cselAlone : ControlLevels := { wselLow := false, rdLow := false }

/-- The data lines of a port with RD# high: released (R187, R191; log 15). -/
def State.linesReleased (s : State) (p : Port) : State := { s with
  windows := put s.windows p { s.window p with dataOut := none } }

/-- Read rights of a job's port on a source frame (R25, R113). -/
abbrev State.ReadRight (s : State) (p : Port) (f : Frame) : Prop :=
  ((s.frame f).owner = some p ∧ ((s.frame f).state = .owned ∨ (s.frame f).state = .offered)) ∨
    sel (s.frame f).readers p = true

/-- Write rights of a job's port on a destination frame (R25, R113). -/
abbrev State.WriteRight (s : State) (p : Port) (f : Frame) : Prop :=
  (s.frame f).owner = some p ∧ (s.frame f).state = .owned

/-- The CHECKGEN test of a job (R113, R115). -/
abbrev State.GenerationsHold (s : State) (j : Job) : Prop :=
  j.control.getLsbD 3 = true →
    j.sourceGen = (s.frame j.source).generation ∧ j.destGen = (s.frame j.dest).generation

/-- The fate of an event that arrives for a port, by the four rows of R130. -/
def State.placed (s : State) (p : Port) (e : EventRecord) : State :=
  if (s.session p).state ≠ .up then s
  else
    match (s.queue p).overflow with
    | none =>
      if (s.queue p).ordinary.length ≤ 30 then
        { s with queues := put s.queues p { s.queue p with ordinary := (s.queue p).ordinary ++ [e] } }
      else { s with queues := put s.queues p { s.queue p with overflow := some 1 } }
    | some n => { s with queues := put s.queues p { s.queue p with
        overflow := some (if n.toNat = 65535 then n else n + 1) } }

/-- The number of the session after session `n` (R172). -/
def sessionAfter (n : Byte) : Byte := BitVec.ofNat 8 (if n.toNat = 255 then 1 else n.toNat + 1)

/-- The current job of a port has ended: the engine is FREE, and a job gone that was owed for the port is reported
(R121, R124, R125). -/
def State.withoutJob (s : State) (p : Port) : State := { s with
  copy := { s.copy with engine := .free, owed := put s.copy.owed p false }
  sessions := if sel s.copy.owed p then put s.sessions p { s.session p with jobGone := true } else s.sessions }

/-- A port enters UP from the session record given: the next session number, the directory's flag off, the entry handed
to the Event Unit (R10, R170, R172, R181); events on their way to the port are lost (R143, log 7). -/
def State.enteredUp (s : State) (p : Port) (r : SessionRecord) : State := { s with
  sessions := put s.sessions p { r with
    state := .up, number := sessionAfter r.number, peerUp := some (sessionAfter r.number) }
  closingTaken := put s.closingTaken p false
  handovers :=
    (s.handovers.map fun h => { h with events := h.events.filter fun d => d.1 != p }).filter fun h => h.events != [] }

/-- A port enters CLOSING from the session record given: the announcement is handed to the five blocks (R169, R171,
R173). -/
def State.enteredClosing (s : State) (p : Port) (r : SessionRecord) (rejoin : Bool) : State := { s with
  sessions := put s.sessions p { r with
    state := .closing rejoin .awaitJob, annEvent := true, annCommand := true, annWindow := true, annCopy := true }
  dirMail := s.dirMail ++ [.closing p] }

/-! ## The Frame Directory -/

/-- The offer field of a frame record (R1, R47): it names the frame, its owner as offerer and another port as
recipient; with a timeout the ticks remaining are 1 to the timeout, without one they are 0 (R47, R51). -/
abbrev Offer.Legal (f : Frame) (r : FrameRecord) (o : Offer) : Prop :=
  o.frame = f ∧ r.owner = some o.offerer ∧ o.recipient ≠ o.offerer ∧ o.remaining.toNat ≤ o.timeout.toNat ∧
    (o.timeout ≠ 0 → o.remaining ≠ 0)

/-- The presence column of the frame record (R1, R2). -/
abbrev FrameRecord.Legal (f : Frame) (r : FrameRecord) : Prop :=
  (r.owner.isSome = true ↔ r.state = .owned ∨ r.state = .offered) ∧
    (r.offer.isSome = true ↔ r.state = .offered) ∧
    (∀ o ∈ r.offer, o.Legal f r) ∧
    (∀ q, sel r.readers q = true → r.owner.isSome = true ∧ r.owner ≠ some q) ∧
    (∀ q ∈ r.fallback, r.owner.isSome = true ∧ r.owner ≠ some q) ∧
    (r.reservation.isSome = true → r.state = .scrubbing)

namespace State

/-- Every frame record is as R1 and R2 say. -/
abbrev FramesLegal (s : State) : Prop := ∀ f, (s.frame f).Legal f

/-- In SPLIT mode no port's quota count exceeds 16 (R11). -/
abbrev QuotaKept (s : State) : Prop := s.splitQuota = true → ∀ p, s.quotaCount p ≤ 16

/-- A frame's mark is on exactly while a segment that reads or writes it is in flight (R9). -/
abbrev MarksLegal (s : State) : Prop :=
  ∀ f, (s.frame f).mark = s.copy.engine.segment?.any fun j => f == j.source || f == j.dest

/-- What the directory holds names only ports that are UP in its view: readers, fallbacks, reservers and the two parties
of an offer (R6, R8, R26, R47). -/
abbrev GrantsLegal (s : State) : Prop :=
  ∀ f q, s.dirUp q = false →
    sel (s.frame f).readers q = false ∧ (s.frame f).fallback ≠ some q ∧ (s.frame f).reservation ≠ some q ∧
      ∀ o ∈ (s.frame f).offer, o.recipient ≠ q ∧ o.offerer ≠ q

/-- Each inbox holds exactly the offers made to its port, at most 8, no frame twice, URGENT ahead of NORMAL
(R47, R48). -/
abbrev InboxesLegal (s : State) : Prop :=
  ∀ p, (s.inbox p).Nodup ∧ (s.inbox p).length ≤ 8 ∧
    (∀ f, f ∈ s.inbox p ↔ (s.frame f).offer.any (fun o => o.recipient == p) = true) ∧
    (s.inbox p).Pairwise fun f g => s.isUrgent g = true → s.isUrgent f = true

/-! ## The Scrub Engine -/

/-- The scrub queue holds exactly the SCRUBBING frames, none twice (R31); the engine's state, its pieces and the head's
mark agree (R33 to R35). -/
abbrev ScrubLegal (s : State) : Prop :=
  s.scrub.queue.Nodup ∧ (∀ f, f ∈ s.scrub.queue ↔ (s.frame f).state = .scrubbing) ∧
    (s.scrub.phase = .idle ∨ s.scrub.queue ≠ []) ∧
    (s.scrub.phase = .idle ∨ s.scrub.phase = .held → s.scrub.pieces = 0) ∧
    (s.scrub.phase = .zeroing → s.scrub.pieces < 16) ∧ (s.scrub.phase = .reporting → s.scrub.pieces = 16) ∧
    ∀ f ∈ s.scrub.queue.head?,
      (s.scrub.phase = .held → s.rstLow = false → (s.frame f).mark = true) ∧
        (s.scrub.phase = .zeroing ∨ s.scrub.phase = .reporting → (s.frame f).mark = false)

/-! ## Sessions -/

/-- PRST# of an UP port is high, of a DOWN port low, and rejoin is on exactly while it is high (R169, R170, R183). -/
abbrev PinsLegal (s : State) : Prop :=
  ∀ p, ((s.session p).state = .up → (s.session p).prstLow = false) ∧
    ((s.session p).state = .down → (s.session p).prstLow = true) ∧
    ∀ rejoin ∈ (s.session p).state.rejoin?, rejoin = !(s.session p).prstLow

/-- The directory's view of a port and the requests on their way to it agree with the Session Controller's record
(R10, R173, R174): an UP port is UP in its view; an announcement not yet taken is a CLOSING port's and is followed by
the disposal, never preceded; a DOWN port is not UP in its view. -/
abbrev ViewLegal (s : State) : Prop :=
  s.dirMail.Nodup ∧
    (∀ p, .closing p ∈ s.dirMail → .dispose p ∈ s.dirMail →
      s.dirMail.idxOf (.closing p) < s.dirMail.idxOf (.dispose p)) ∧
    ∀ p, ((s.session p).state = .up → s.dirUp p = true) ∧ ((s.session p).state = .down → s.dirUp p = false) ∧
      (.closing p ∈ s.dirMail → s.isClosing p = true ∧ s.dirUp p = true) ∧
      (.dispose p ∈ s.dirMail → (s.session p).state.step? = some .awaitDisposal) ∧
      (s.isClosing p = true → s.rstLow = false → .closing p ∉ s.dirMail → s.dirUp p = false)

/-- How many of the marks of a teardown's progress a port has: its announcement on the way to the Copy Engine, the report
that the engine owes, the report on its way, the disposal requested, the disposal done. -/
def teardownTokens (s : State) (p : Port) : Nat :=
  (s.session p).annCopy.toNat + (sel s.copy.owed p).toNat + (s.session p).jobGone.toNat +
    (s.dirMail.contains (.dispose p)).toNat + (s.session p).disposalDone.toNat

/-- A teardown has one thing under way: what the Session Controller awaits (R125, R167, R177, R178). A port that is not
CLOSING has none. -/
abbrev TeardownLegal (s : State) : Prop :=
  ∀ p, (s.isClosing p = true → s.rstLow = false → s.teardownTokens p = 1) ∧
    (s.isClosing p = false → s.teardownTokens p = 0) ∧
    ((s.session p).state.step? = some .awaitJob →
      .dispose p ∉ s.dirMail ∧ (s.session p).disposalDone = false) ∧
    ((s.session p).state.step? = some .awaitDisposal →
      (s.session p).annCopy = false ∧ sel s.copy.owed p = false ∧ (s.session p).jobGone = false)

/-! ## The Copy Engine -/

/-- The ring record's presence column and ranges (R99): kick noted only while the ring's fetch is in progress, and, of a
port that is UP, STOPPING only while its job is current (R104). -/
abbrev RingsLegal (s : State) : Prop :=
  ∀ p, ((s.ring p).config = none → s.ring p = Ring.unset) ∧
    ∀ c ∈ (s.ring p).config,
      (s.ring p).state ≠ .unset ∧ ringFits c.base c.size = true ∧ (s.ring p).head < c.size ∧
        ((s.ring p).kickNoted = true → s.fetchInProgress p = true) ∧
        ((s.ring p).state = .stopping → (s.session p).state = .up → s.rstLow = false → s.jobCurrent p = true)

/-- The current job is its ring's: the ring is ACTIVE or STOPPING with the job's descriptor at its head (R99, R104,
R107), unless the port's closing has been taken at the engine and job gone is still owed (R124, R125). -/
abbrev JobPlacesLegal (s : State) : Prop :=
  (∀ j ∈ s.copy.engine.place?,
    ((s.ring j.port).config = none → sel s.copy.owed j.port = true) ∧
    ∀ c ∈ (s.ring j.port).config,
      ((s.ring j.port).state = .active ∨ (s.ring j.port).state = .stopping) ∧ j.ringFrame = c.frame ∧
        j.index = (s.ring j.port).head ∧ j.offset = c.base + (s.ring j.port).head * 32) ∧
    ∀ p, sel s.copy.owed p = true → s.jobCurrent p = true ∧ s.ring p = Ring.unset

/-- A validated job lies inside its two frames and has done whole segments, with bytes still to move (R113, R114). -/
abbrev Job.Legal (j : Job) : Prop :=
  1 ≤ j.length ∧ j.sourceOffset + j.length ≤ 4096 ∧ j.destOffset + j.length ≤ 4096 ∧ j.done < j.length ∧
    j.done % 256 = 0

/-- The engine's job, if it is past its fetch and before its write-back, is legal, and the current descriptor lies inside
its frame (R99). -/
abbrev JobsLegal (s : State) : Prop :=
  (∀ j ∈ s.copy.engine.job?, Job.Legal j) ∧ ∀ j ∈ s.copy.engine.place?, j.offset + 32 ≤ 4096

/-- While a port's ring is not UNSET, the ring frame is owned by that port and is OWNED (R101). -/
abbrev RingFramesOwned (s : State) : Prop :=
  ∀ p, ∀ c ∈ (s.ring p).config, (s.frame c.frame).owner = some p ∧ (s.frame c.frame).state = .owned

/-- A closing that the Copy Engine has taken left the ring UNSET (R124): the ring of a port that is not UP is UNSET once
its announcement at the engine is taken. -/
abbrev ClosedRingsUnset (s : State) : Prop :=
  ∀ p, (s.session p).state ≠ .up → s.rstLow = false → (s.session p).annCopy = false → s.ring p = Ring.unset

/-! ## Holdings of a port that is DOWN (R180) -/

/-- The port owns no frame. -/
abbrev OwnsNothing (s : State) (p : Port) : Prop := ∀ f, (s.frame f).owner ≠ some p

/-- Every slot entry of the port is invalid, profile 0 is active and the fault record is empty. -/
abbrev WindowEmpty (s : State) (p : Port) : Prop :=
  (s.window p).profiles = WindowUnit.reset.profiles ∧ (s.window p).active = 0 ∧ (s.window p).fault = none

/-- A port whose disposal is done owns no frame and is not UP in the directory's view, and a DOWN port owns no frame
(R28, R180). -/
abbrev HoldingsLegal (s : State) : Prop :=
  ∀ p, ((s.session p).disposalDone = true → s.OwnsNothing p ∧ s.dirUp p = false) ∧
    ((s.session p).state = .down → s.OwnsNothing p)

/-- A closing that the Event Unit and the Window Unit have taken left their registers of the port empty, and they stay so
until the port is UP (R96, R148, R180); an announcement on its way is a CLOSING port's. -/
abbrev UnitsLegal (s : State) : Prop :=
  ∀ p, (s.isClosing p = false → (s.session p).annEvent = false ∧ (s.session p).annWindow = false) ∧
    ((s.session p).state ≠ .up → s.rstLow = false →
      ((s.session p).annEvent = false → s.queue p = EventPort.reset) ∧
        ((s.session p).annWindow = false → s.WindowEmpty p))

/-! ## The Event Unit, the Command Units, the arbiter, the window buses -/

/-- A queue holds at most 31 ordinary events (R128). -/
abbrev QueuesLegal (s : State) : Prop := ∀ p, (s.queue p).ordinary.length ≤ 31

/-- At most one window access of a port is in flight, and a delayed one waits behind a held write or has just been freed
(R85, R187 to R189); with PRST# low none is delayed, so RDY is low for a read in flight alone (R192; log 23); the word of an
access is at an even offset (R75). -/
abbrev BusesLegal (s : State) : Prop :=
  ∀ p, ((s.window p).reading.isSome = true → (s.window p).hold = none ∧ (s.window p).delayed = none) ∧
    ((s.session p).prstLow = true → (s.window p).delayed = none) ∧
    (∀ w ∈ (s.window p).reading, w.offset.toNat % 2 = 0) ∧ ∀ h ∈ (s.window p).hold, h.place.offset.toNat % 2 = 0

/-- The Tick Timer's count stays below the 25 000 periods of a tick (R199). -/
abbrev TimerLegal (s : State) : Prop := s.tickCount < 25000

/-- How many claims of a claimant are presented, waiting or granted. -/
def claims (s : State) (c : Claimant) : Nat :=
  s.arbiter.presented.count c + s.arbiter.waiting.count c + (s.holds c).toNat

/-- A claimant has work that needs the array (R33, R110, R193): a read in flight or a held write, a job, a scrub in
progress. -/
def needsArray (s : State) : Claimant → Bool
  | .port p => (s.window p).reading.isSome || (s.window p).hold.isSome
  | .copy => decide (s.copy.engine ≠ .free)
  | .scrub => decide (s.scrub.phase = .zeroing)

/-- Each claimant has one claim waiting or granted while it needs the array, and none otherwise (R193). -/
abbrev ClaimsLegal (s : State) : Prop :=
  s.rstLow = false →
    (∀ p, s.claims (.port p) = (s.needsArray (.port p)).toNat) ∧ s.claims .copy = (s.needsArray .copy).toNat ∧
      s.claims .scrub = (s.needsArray .scrub).toNat

/-! ## Groups -/

/-- What the directory's tables must satisfy together: the frame records, the marks, the requests on their way, the grants
of closed ports, the inboxes and the scrub queue. -/
abbrev DirectoryLegal (s : State) : Prop :=
  s.FramesLegal ∧ s.MarksLegal ∧ s.ViewLegal ∧ s.GrantsLegal ∧ s.InboxesLegal ∧ s.ScrubLegal

/-- What the teardown and the Copy Engine must satisfy together: one report under way in each closing, the rings, the
current job, and no ring of a port whose closing the engine has taken. -/
abbrev ClosingsLegal (s : State) : Prop :=
  s.ViewLegal ∧ s.TeardownLegal ∧ s.ClosedRingsUnset ∧ s.RingsLegal ∧ s.JobPlacesLegal ∧ s.JobsLegal

end State
end Sys2Proof.Machine
end

