-- ==== Sys2Proof/Certificates/Slice0/Obligations.lean ====
section
/-! DEFINITION. The statements for the provers: what each command does, what one step runs, and the invariants that every
step keeps. A right-hand side names the whole next state, so that it is the command's frame as well: what it does not
name is unchanged. -/

section

open Sys2Proof Sys2Proof.Machine

/-! ## The queue and the step -/

/-- One step takes the command at the front of the queue and is exec of it on the state with the queue's rest. The queue
is the model's own (log 3). -/
def Obligations.StepRunsFrontCommand : Prop :=
  ∀ (c : Instr) (rest : List Instr) (s : State), s.pending = c :: rest → step s = exec c { s with pending := rest }

/-- With no command waiting a step is one REFCLK period: the Tick Timer's count rises, and the 25 000th period is the
taking of a tick (R199); while RST# is low nothing happens. That an idle step is one period is the model's choice
(log 13). -/
def Obligations.IdleStepCountsOnePeriod : Prop :=
  ∀ s : State, s.pending = [] →
    (s.rstLow = true → step s = .next s) ∧
      (s.rstLow = false → s.tickCount < 24999 → step s = .next { s with tickCount := s.tickCount + 1 }) ∧
      (s.rstLow = false → 24999 ≤ s.tickCount → step s = exec .tick s)

/-- No command changes the queue of the commands that wait behind it (the model's own queue, log 3). -/
def Obligations.ExecKeepsQueue : Prop := ∀ (c : Instr) (s t : State), exec c s = .next t → t.pending = s.pending

/-- While RST# is low no command but its rising edge changes anything: no cycle, no PRST# change, and no command, tick or
report in any block is taken (R197). -/
def Obligations.NothingTakenWhileRstLow : Prop :=
  ∀ (c : Instr) (s : State), s.rstLow = true → (∀ qmode prst, c ≠ .rstRisingEdge qmode prst) → exec c s = .next s

/-! ## Commands at a port's closing -/

/-- An owning block that comes to take a pending command and finds the port not UP takes nothing, and the announcement at
the Command Unit finds one still pending: either way it is discarded with result CLOSING, RES0 to RES3 0000h, OVERRUN as it
was, and nothing else changes (R160). -/
def Obligations.CommandOfClosingPortDiscarded : Prop :=
  ∀ (s : State) (p : Port), s.rstLow = false →
    let discarded := { s with
      commands := put s.commands p { s.command p with
        pendingCmd := none, result := .closing, res0 := 0, res1 := 0, res2 := 0, res3 := 0 } }
    let taken (t : State) : State := { t with sessions := put s.sessions p { s.session p with annCommand := false } }
    (∀ k, (s.session p).state ≠ .up → (s.command p).pendingCmd = some k →
        (∀ row ∈ ownerRows, row.1 = k.code → exec (row.2 p) s = .next discarded) ∧
          ((∀ row ∈ ownerRows, row.1 ≠ k.code) → exec (.unknown p) s = .next discarded)) ∧
      ((s.session p).annCommand = true → (s.command p).pendingCmd = none →
        exec (.commandUnitClosing p) s = .next (taken s)) ∧
      ((s.session p).annCommand = true → (s.command p).pendingCmd ≠ none →
        exec (.commandUnitClosing p) s = .next (taken discarded))

/-! ## The frame commands -/

/-- CLAIM(frame, reserve): every row of the table of R13, and the range check. -/
def Obligations.ClaimAnswersByTable : Prop :=
  ∀ (s : State) (p : Port) (a : Args) (k : Bool), s.Ready p 0x01 a k →
    (64 ≤ a.arg0.toNat ∨ 2 ≤ a.arg1.toNat → Refuses (.claim p) s p k .badArg) ∧
      ∀ (f : Frame) (reserve : Bool), a.arg0.toNat = f.val → a.arg1.toNat = reserve.toNat →
        let r := s.frame f
        (r.state = .free → ¬s.AtQuota p →
            Replies (.claim p) s
              (s.setFrame f { r with state := .owned, owner := some p, generation := r.generation + 1 }) p k .ok
              (lowByte (r.generation + 1)) 0 0 0) ∧
          (r.state = .free → s.AtQuota p → Refuses (.claim p) s p k .quota) ∧
          (r.state = .owned ∨ r.state = .offered → r.owner = some p →
            Replies (.claim p) s s p k .ok (lowByte r.generation) 0 0 0) ∧
          (r.state = .owned ∨ r.state = .offered → r.owner ≠ some p → Refuses (.claim p) s p k .taken) ∧
          (r.state = .scrubbing → r.reservation = none → reserve = false → Refuses (.claim p) s p k .scrubbing) ∧
          (r.state = .scrubbing → r.reservation = none → reserve = true → ¬s.AtQuota p →
            Replies (.claim p) s (s.setFrame f { r with reservation := some p }) p k .queued
              (lowByte r.generation) 0 0 0) ∧
          (r.state = .scrubbing → r.reservation = none → reserve = true → s.AtQuota p →
            Refuses (.claim p) s p k .quota) ∧
          (r.state = .scrubbing → r.reservation = some p →
            Replies (.claim p) s s p k .queued (lowByte r.generation) 0 0 0) ∧
          ∀ q, q ≠ p → r.state = .scrubbing → r.reservation = some q →
            Refuses (.claim p) s p k (if reserve then .reserved else .scrubbing)

/-- CLAIM_ANY: QUOTA, else NO_FREE, else the lowest-numbered FREE frame is taken (R15). -/
def Obligations.ClaimAnyTakesLowestFree : Prop :=
  ∀ (s : State) (p : Port) (a : Args) (k : Bool), s.Ready p 0x02 a k →
    (s.AtQuota p → Refuses (.claimAny p) s p k .quota) ∧
      (¬s.AtQuota p → (∀ f, (s.frame f).state ≠ .free) → Refuses (.claimAny p) s p k .noFree) ∧
      ∀ f, ¬s.AtQuota p → (s.frame f).state = .free → (∀ g, g < f → (s.frame g).state ≠ .free) →
        Replies (.claimAny p) s
          (s.setFrame f { s.frame f with
            state := .owned, owner := some p, generation := (s.frame f).generation + 1 }) p k .ok
          (BitVec.ofNat 16 f.val) (lowByte ((s.frame f).generation + 1)) 0 0

/-- RELEASE(frame): the refusals in their order, else the readers get READ_REVOKED (RELEASED), the frame becomes
SCRUBBING without owner, readers and fallback, and stands at the tail of the scrub queue (R16, R32). -/
def Obligations.ReleaseSendsFrameToScrub : Prop :=
  ∀ (s : State) (p : Port) (a : Args) (k : Bool), s.Ready p 0x03 a k →
    (64 ≤ a.arg0.toNat → Refuses (.release p) s p k .badArg) ∧
      ∀ f : Frame, a.arg0.toNat = f.val →
        let r := s.frame f
        let isRing := (s.ring p).state ≠ .unset ∧ ∃ c, (s.ring p).config = some c ∧ c.frame = f
        (r.owner ≠ some p → Refuses (.release p) s p k .notOwner) ∧
          (r.owner = some p → r.state = .offered → Refuses (.release p) s p k .offered) ∧
          (r.owner = some p → r.state ≠ .offered → isRing → Refuses (.release p) s p k .ringFrame) ∧
          (r.owner = some p → r.state ≠ .offered → ¬isRing →
            Replies (.release p) s
              (((s.setFrame f { r with
                  state := .scrubbing, owner := none, readers := Vector.replicate 4 false, fallback := none
                  offer := none }).setScrub { s.scrub with queue := s.scrub.queue ++ [f] }).withEvents .directory
                ((allPorts.filter fun q => sel r.readers q).map fun q => (q, Event.readRevoked p f .released)))
              p k .ok 0 0 0 0)

/-- LABEL(frame, value): refused to others and while the frame is OFFERED, else the label takes the value (R17). -/
def Obligations.LabelSetsLabel : Prop :=
  ∀ (s : State) (p : Port) (a : Args) (k : Bool), s.Ready p 0x04 a k →
    (64 ≤ a.arg0.toNat → Refuses (.label p) s p k .badArg) ∧
      ∀ f : Frame, a.arg0.toNat = f.val →
        ((s.frame f).owner ≠ some p → Refuses (.label p) s p k .notOwner) ∧
          ((s.frame f).owner = some p → (s.frame f).state = .offered → Refuses (.label p) s p k .offered) ∧
          ((s.frame f).owner = some p → (s.frame f).state ≠ .offered →
            Replies (.label p) s (s.setFrame f { s.frame f with label := a.arg1 }) p k .ok 0 0 0 0)

/-- FALLBACK(frame, port): the six checks of R18 in their order. -/
def Obligations.FallbackNamesHeir : Prop :=
  ∀ (s : State) (p : Port) (a : Args) (k : Bool), s.Ready p 0x05 a k →
    (64 ≤ a.arg0.toNat ∨ 4 ≤ a.arg1.toNat ∧ a.arg1 ≠ 0x00FF → Refuses (.fallback p) s p k .badArg) ∧
      ∀ f : Frame, a.arg0.toNat = f.val →
        let r := s.frame f
        (a.arg1 = 0x00FF → r.owner ≠ some p → Refuses (.fallback p) s p k .notOwner) ∧
          (a.arg1 = 0x00FF → r.owner = some p →
            Replies (.fallback p) s (s.setFrame f { r with fallback := none }) p k .ok 0 0 0 0) ∧
          ∀ q : Port, a.arg1.toNat = q.val →
            (r.owner ≠ some p → Refuses (.fallback p) s p k .notOwner) ∧
              (r.owner = some p → q = p → Refuses (.fallback p) s p k .self) ∧
              (r.owner = some p → q ≠ p → s.dirUp q = false → Refuses (.fallback p) s p k .peerDown) ∧
              (r.owner = some p → q ≠ p → s.dirUp q = true →
                Replies (.fallback p) s (s.setFrame f { r with fallback := some q }) p k .ok 0 0 0 0)

/-- FRAME_INFO(frame) changes nothing but its reply, whose words hold the record's fields at the bits of R202
(R19, R202). -/
def Obligations.FrameInfoShowsRecord : Prop :=
  ∀ (s : State) (p : Port) (a : Args) (k : Bool), s.Ready p 0x06 a k →
    (64 ≤ a.arg0.toNat → Refuses (.frameInfo p) s p k .badArg) ∧
      ∀ f : Frame, a.arg0.toNat = f.val →
        ∃ w0 w1 w2 w3 : Word, Replies (.frameInfo p) s s p k .ok w0 w1 w2 w3 ∧
          w0.extractLsb' 0 8 = (s.frame f).generation ∧
          (w0.extractLsb' 8 3).toNat =
            (match (s.frame f).state with
              | .free => 0
              | .owned => 1
              | .offered => 2
              | .scrubbing => 3) ∧
          w0.getLsbD 11 = (s.frame f).mark ∧ (∀ q : Port, w0.getLsbD (12 + q.val) = sel (s.frame f).readers q) ∧
          w1 = (s.frame f).label ∧ w2.extractLsb' 0 8 = portField (s.frame f).owner ∧
          w2.extractLsb' 8 8 = portField ((s.frame f).offer.map Offer.recipient) ∧
          w3.extractLsb' 0 8 = portField (s.frame f).reservation ∧ w3.extractLsb' 8 8 = portField (s.frame f).fallback

/-- LEND(frame, port): the six checks of R20 in their order. -/
def Obligations.LendAddsReader : Prop :=
  ∀ (s : State) (p : Port) (a : Args) (k : Bool), s.Ready p 0x08 a k →
    (64 ≤ a.arg0.toNat ∨ 4 ≤ a.arg1.toNat → Refuses (.lend p) s p k .badArg) ∧
      ∀ (f : Frame) (q : Port), a.arg0.toNat = f.val → a.arg1.toNat = q.val →
        let r := s.frame f
        (r.owner ≠ some p → Refuses (.lend p) s p k .notOwner) ∧
          (r.owner = some p → q = p → Refuses (.lend p) s p k .self) ∧
          (r.owner = some p → q ≠ p → s.dirUp q = false → Refuses (.lend p) s p k .peerDown) ∧
          (r.owner = some p → q ≠ p → s.dirUp q = true → sel r.readers q = true →
            Replies (.lend p) s s p k .ok 0 0 0 0) ∧
          (r.owner = some p → q ≠ p → s.dirUp q = true → sel r.readers q = false →
            Replies (.lend p) s
              ((s.setFrame f { r with readers := put r.readers q true }).withEvents .directory
                [(q, Event.readGranted p f r.generation)]) p k .ok 0 0 0 0)

/-- REVOKE(frame, port): the four checks of R21 in their order. -/
def Obligations.RevokeRemovesReader : Prop :=
  ∀ (s : State) (p : Port) (a : Args) (k : Bool), s.Ready p 0x09 a k →
    (64 ≤ a.arg0.toNat ∨ 4 ≤ a.arg1.toNat → Refuses (.revoke p) s p k .badArg) ∧
      ∀ (f : Frame) (q : Port), a.arg0.toNat = f.val → a.arg1.toNat = q.val →
        let r := s.frame f
        (r.owner ≠ some p → Refuses (.revoke p) s p k .notOwner) ∧
          (r.owner = some p → sel r.readers q = false → Refuses (.revoke p) s p k .notFound) ∧
          (r.owner = some p → sel r.readers q = true →
            Replies (.revoke p) s
              ((s.setFrame f { r with readers := put r.readers q false }).withEvents .directory
                [(q, Event.readRevoked p f .revoked)]) p k .ok 0 0 0 0)

/-- DROP(frame): NOT_FOUND to a port that is no reader, else the caller leaves the reader set and nobody gets an event
(R22). -/
def Obligations.DropLeavesReaderSet : Prop :=
  ∀ (s : State) (p : Port) (a : Args) (k : Bool), s.Ready p 0x0A a k →
    (64 ≤ a.arg0.toNat → Refuses (.drop p) s p k .badArg) ∧
      ∀ f : Frame, a.arg0.toNat = f.val →
        (sel (s.frame f).readers p = false → Refuses (.drop p) s p k .notFound) ∧
          (sel (s.frame f).readers p = true →
            Replies (.drop p) s (s.setFrame f { s.frame f with readers := put (s.frame f).readers p false }) p k .ok
              0 0 0 0)

/-! ## The offer commands -/

/-- OFFER(frame, to, class, timeout): the checks of R53 in their order; then the record is made, the frame becomes
OFFERED, the offer stands in the recipient's inbox behind every offer of its class and ahead of every NORMAL one if it is
URGENT, and the recipient gets OFFER_ARRIVED (R48, R53, R54). -/
def Obligations.OfferEntersInbox : Prop :=
  ∀ (s : State) (p : Port) (a : Args) (k : Bool), s.Ready p 0x10 a k →
    (64 ≤ a.arg0.toNat ∨ 4 ≤ a.arg1.toNat ∨ 2 ≤ a.arg2.toNat → Refuses (.offer p) s p k .badArg) ∧
      ∀ (f : Frame) (q : Port) (c : OfferClass), a.arg0.toNat = f.val → a.arg1.toNat = q.val →
        a.arg2.toNat = c.code.toNat →
          let r := s.frame f
          let isRing := (s.ring p).state ≠ .unset ∧ ∃ g, (s.ring p).config = some g ∧ g.frame = f
          let mine := r.owner = some p ∧ r.state ≠ .offered
          let fit := mine ∧ q ≠ p ∧ s.dirUp q = true
          (r.owner ≠ some p → Refuses (.offer p) s p k .notOwner) ∧
            (r.owner = some p → r.state = .offered → Refuses (.offer p) s p k .offered) ∧
            (mine → q = p → Refuses (.offer p) s p k .self) ∧
            (mine → q ≠ p → s.dirUp q = false → Refuses (.offer p) s p k .peerDown) ∧
            (fit → isRing → Refuses (.offer p) s p k .ringFrame) ∧
            (fit → ¬isRing → 8 ≤ (s.inbox q).length → Refuses (.offer p) s p k .inboxFull) ∧
            ∀ urgents normals, s.inbox q = urgents ++ normals → (∀ g ∈ urgents, s.isUrgent g = true) →
              (∀ g ∈ normals, s.isUrgent g = false) → fit → ¬isRing → (s.inbox q).length < 8 →
                Replies (.offer p) s
                  (((s.setFrame f { r with state := .offered, offer := some ⟨f, p, q, c, a.arg3, a.arg3⟩ }).setInbox q
                      (match c with
                        | .urgent => urgents ++ f :: normals
                        | .normal => urgents ++ normals ++ [f])).withEvents .directory
                    [(q, Event.offerArrived p f r.generation r.label c)]) p k .ok 0 0 0 0

/-- WITHDRAW(frame): NOT_OWNER, NOT_OFFERED, else the offer leaves the recipient's inbox, the frame is OWNED by the
caller again and the recipient gets OFFER_CANCELLED (WITHDRAWN) (R56, R49). -/
def Obligations.WithdrawReturnsFrame : Prop :=
  ∀ (s : State) (p : Port) (a : Args) (k : Bool), s.Ready p 0x11 a k →
    (64 ≤ a.arg0.toNat → Refuses (.withdraw p) s p k .badArg) ∧
      ∀ f : Frame, a.arg0.toNat = f.val →
        let r := s.frame f
        (r.owner ≠ some p → Refuses (.withdraw p) s p k .notOwner) ∧
          (r.owner = some p → r.offer = none → Refuses (.withdraw p) s p k .notOffered) ∧
          ∀ o, r.owner = some p → r.offer = some o → o.frame = f →
            Replies (.withdraw p) s
              (((s.setFrame f { r with state := .owned, offer := none }).setInbox o.recipient
                  ((s.inbox o.recipient).erase f)).withEvents .directory
                [(o.recipient, Event.offerCancelled p f .withdrawn)]) p k .ok 0 0 0 0

/-- ACCEPT(frame): NOT_FOUND, QUOTA with the offer left as it is, else the frame is the caller's with generation + 1,
without readers and fallback, its label kept; every other reader gets READ_REVOKED (OWNER_CHANGED) and the former owner
OFFER_ACCEPTED with the new generation (R57, R58). -/
def Obligations.AcceptPassesFrame : Prop :=
  ∀ (s : State) (p : Port) (a : Args) (k : Bool), s.Ready p 0x12 a k →
    (64 ≤ a.arg0.toNat → Refuses (.accept p) s p k .badArg) ∧
      ∀ f : Frame, a.arg0.toNat = f.val →
        let r := s.frame f
        (f ∉ s.inbox p → Refuses (.accept p) s p k .notFound) ∧
          ((∀ o, r.offer = some o → o.recipient ≠ p) → Refuses (.accept p) s p k .notFound) ∧
          ∀ o, f ∈ s.inbox p → r.offer = some o → o.recipient = p → o.frame = f →
            (s.AtQuota p → Refuses (.accept p) s p k .quota) ∧
              (¬s.AtQuota p →
                Replies (.accept p) s
                  (((s.setFrame f { r with
                      state := .owned, owner := some p, generation := r.generation + 1
                      readers := Vector.replicate 4 false, fallback := none, offer := none }).setInbox p
                      ((s.inbox p).erase f)).withEvents .directory
                    (((allPorts.filter fun q => sel r.readers q && q != p).map fun q =>
                        (q, Event.readRevoked o.offerer f .ownerChanged)) ++
                      [(o.offerer, Event.offerAccepted p f (r.generation + 1))])) p k .ok
                  (lowByte (r.generation + 1)) 0 0 0)

/-- DECLINE(frame): NOT_FOUND, else the offer leaves the caller's inbox, the frame is OWNED by the offerer and the offerer
gets OFFER_DECLINED; the quota is not checked (R60). -/
def Obligations.DeclineReturnsFrame : Prop :=
  ∀ (s : State) (p : Port) (a : Args) (k : Bool), s.Ready p 0x13 a k →
    (64 ≤ a.arg0.toNat → Refuses (.decline p) s p k .badArg) ∧
      ∀ f : Frame, a.arg0.toNat = f.val →
        let r := s.frame f
        (f ∉ s.inbox p → Refuses (.decline p) s p k .notFound) ∧
          ((∀ o, r.offer = some o → o.recipient ≠ p) → Refuses (.decline p) s p k .notFound) ∧
          ∀ o, f ∈ s.inbox p → r.offer = some o → o.recipient = p → o.frame = f →
            Replies (.decline p) s
              (((s.setFrame f { r with state := .owned, offer := none }).setInbox p
                  ((s.inbox p).erase f)).withEvents .directory [(o.offerer, Event.offerDeclined p f)]) p k .ok 0 0 0 0

/-- PEEK(index) changes nothing but its reply: BAD_ARG, NOT_FOUND, or the offer at that position in the words of R202
(R61, R202). -/
def Obligations.PeekShowsOffer : Prop :=
  ∀ (s : State) (p : Port) (a : Args) (k : Bool), s.Ready p 0x14 a k →
    (8 ≤ a.arg0.toNat → Refuses (.peek p) s p k .badArg) ∧
      (a.arg0.toNat < 8 → (s.inbox p).length ≤ a.arg0.toNat → Refuses (.peek p) s p k .notFound) ∧
      ∀ (f : Frame) (o : Offer), a.arg0.toNat < 8 → (s.inbox p)[a.arg0.toNat]? = some f →
        (s.frame f).offer = some o → o.frame = f →
          ∃ w0 w1 w2 w3 : Word, Replies (.peek p) s s p k .ok w0 w1 w2 w3 ∧
            w0.extractLsb' 0 8 = (s.frame f).generation ∧ (w0.extractLsb' 8 8).toNat = f.val ∧
            w1 = (s.frame f).label ∧ (w2.extractLsb' 0 8).toNat = o.offerer.val ∧
            w2.getLsbD 8 = (o.cls == .urgent) ∧ w2.extractLsb' 9 7 = 0 ∧ w3 = o.remaining

/-! ## The commands of the Window Unit, the Copy Engine, the Event Unit, the Session Controller and the Command Unit -/

/-- MAP_SET makes the entry valid with the frame and access given, MAP_CLEAR makes it invalid, MAP_READ shows it, and
FAULT_CLEAR empties the fault record; an argument out of range gives BAD_ARG (R80, R81, R82, R94, R202). -/
def Obligations.WindowUnitCommands : Prop :=
  ∀ (s : State) (p : Port) (a : Args) (k : Bool),
    let w := s.window p
    let entries (profile : Fin 4) (slot : Fin 16) (e : Option SlotEntry) : State :=
      s.setWindow p { w with profiles := put w.profiles profile (put (sel w.profiles profile) slot e) }
    (s.Ready p 0x20 a k →
        (4 ≤ a.arg0.toNat ∨ 16 ≤ a.arg1.toNat ∨ 64 ≤ a.arg2.toNat ∨ 2 ≤ a.arg3.toNat →
          Refuses (.mapSet p) s p k .badArg) ∧
        ∀ (profile : Fin 4) (slot : Fin 16) (f : Frame) (writable : Bool), a.arg0.toNat = profile.val →
          a.arg1.toNat = slot.val → a.arg2.toNat = f.val → a.arg3.toNat = writable.toNat →
            Replies (.mapSet p) s (entries profile slot (some ⟨f, if writable then .rw else .ro⟩)) p k .ok 0 0 0 0) ∧
      (s.Ready p 0x21 a k →
        (4 ≤ a.arg0.toNat ∨ 16 ≤ a.arg1.toNat → Refuses (.mapClear p) s p k .badArg) ∧
        ∀ (profile : Fin 4) (slot : Fin 16), a.arg0.toNat = profile.val → a.arg1.toNat = slot.val →
          Replies (.mapClear p) s (entries profile slot none) p k .ok 0 0 0 0) ∧
      (s.Ready p 0x22 a k →
        (4 ≤ a.arg0.toNat ∨ 16 ≤ a.arg1.toNat → Refuses (.mapRead p) s p k .badArg) ∧
        ∀ (profile : Fin 4) (slot : Fin 16), a.arg0.toNat = profile.val → a.arg1.toNat = slot.val →
          (sel (sel w.profiles profile) slot = none →
            Replies (.mapRead p) s s p k .ok 0x0000 0x00FF 0x0000 0x0000) ∧
          ∀ e, sel (sel w.profiles profile) slot = some e →
            Replies (.mapRead p) s s p k .ok 0x0001 (BitVec.ofNat 16 e.frame.val)
              (if e.access = .rw then 0x0001 else 0x0000) 0x0000) ∧
      (s.Ready p 0x38 a k → Replies (.faultClear p) s (s.setWindow p { w with fault := none }) p k .ok 0 0 0 0)

/-- RING_SETUP(frame, offset, size): the checks of R102 in their order, else the ring is IDLE in the frame given with head
0, last status OK and kick noted off. -/
def Obligations.RingSetupConfigures : Prop :=
  ∀ (s : State) (p : Port) (a : Args) (k : Bool), s.Ready p 0x28 a k →
    (64 ≤ a.arg0.toNat ∨ a.arg2.toNat ∉ [4, 8, 16, 32, 64, 128] ∨ a.arg1.toNat % 32 ≠ 0 ∨
        4096 < a.arg1.toNat + a.arg2.toNat * 32 → Refuses (.ringSetup p) s p k .badArg) ∧
      ∀ f : Frame, a.arg0.toNat = f.val → a.arg2.toNat ∈ [4, 8, 16, 32, 64, 128] → a.arg1.toNat % 32 = 0 →
        a.arg1.toNat + a.arg2.toNat * 32 ≤ 4096 →
          ((s.ring p).state ≠ .unset → Refuses (.ringSetup p) s p k .ringState) ∧
            ((s.ring p).state = .unset → (s.frame f).owner ≠ some p → Refuses (.ringSetup p) s p k .notOwner) ∧
            ((s.ring p).state = .unset → (s.frame f).owner = some p → (s.frame f).state ≠ .owned →
              Refuses (.ringSetup p) s p k .offered) ∧
            ((s.ring p).state = .unset → (s.frame f).owner = some p → (s.frame f).state = .owned →
              Replies (.ringSetup p) s
                (s.setRing p
                  { state := .idle, config := some { frame := f, base := a.arg1.toNat, size := a.arg2.toNat }
                    head := 0, lastStatus := .ok, kickNoted := false }) p k .ok 0 0 0 0)

/-- RING_KICK, RING_STOP, RING_RESTART, RING_TEARDOWN and RING_STATUS by the ring's state (R103 to R107, R202). -/
def Obligations.RingCommandsByState : Prop :=
  ∀ (s : State) (p : Port) (a : Args) (k : Bool),
    let g := s.ring p
    let current := ∃ j, s.copy.engine.place? = some j ∧ j.port = p
    let fetching := ∃ j, s.copy.engine = .fetching j ∧ j.port = p
    (s.Ready p 0x29 a k →
        (g.state = .idle → Replies (.ringKick p) s (s.setRing p { g with state := .active }) p k .ok 0 0 0 0) ∧
        (g.state = .active → fetching →
          Replies (.ringKick p) s (s.setRing p { g with kickNoted := true }) p k .ok 0 0 0 0) ∧
        (g.state = .active → ¬fetching → Replies (.ringKick p) s s p k .ok 0 0 0 0) ∧
        (g.state = .stopping → Replies (.ringKick p) s s p k .ok 0 0 0 0) ∧
        (g.state = .stopped ∨ g.state = .unset → Refuses (.ringKick p) s p k .ringState)) ∧
      (s.Ready p 0x2A a k →
        (g.state = .active → current →
          Replies (.ringStop p) s (s.setRing p { g with state := .stopping, kickNoted := false }) p k .ok 0 0 0 0) ∧
        (g.state = .active → ¬current →
          Replies (.ringStop p) s (s.setRing p { g with state := .stopped }) p k .ok 0 0 0 0) ∧
        (g.state = .idle → Replies (.ringStop p) s (s.setRing p { g with state := .stopped }) p k .ok 0 0 0 0) ∧
        (g.state = .stopping ∨ g.state = .stopped → Replies (.ringStop p) s s p k .ok 0 0 0 0) ∧
        (g.state = .unset → Refuses (.ringStop p) s p k .ringState)) ∧
      (s.Ready p 0x2B a k →
        (g.state = .stopped → Replies (.ringRestart p) s (s.setRing p { g with state := .active }) p k .ok 0 0 0 0) ∧
        (g.state ≠ .stopped → Refuses (.ringRestart p) s p k .ringState)) ∧
      (s.Ready p 0x2C a k →
        (g.state = .idle ∨ g.state = .stopped →
          Replies (.ringTeardown p) s
            (s.setRing p { state := .unset, config := none, head := 0, lastStatus := .ok, kickNoted := false }) p k .ok
            0 0 0 0) ∧
        (g.state ≠ .idle → g.state ≠ .stopped → Refuses (.ringTeardown p) s p k .ringState)) ∧
      (s.Ready p 0x2D a k →
        Replies (.ringStatus p) s s p k .ok
          (match g.state with
            | .unset => 0
            | .idle => 1
            | .active => 2
            | .stopping => 3
            | .stopped => 4)
          (BitVec.ofNat 16 g.head)
          (match g.lastStatus with
            | .ok => 0
            | .badDescriptor => 1
            | .noSourceRight => 2
            | .noDestRight => 3
            | .stale => 4
            | .accessLost => 5)
          0)

/-- POST(to, value): BAD_ARG, PEER_DOWN, else the notice is placed in the target's queue by R130 as part of the taking,
and the result says whether it was appended (R138, R139, R140). -/
def Obligations.PostPlacesNotice : Prop :=
  ∀ (s : State) (p : Port) (a : Args) (k : Bool), s.Ready p 0x30 a k →
    (4 ≤ a.arg0.toNat → Refuses (.post p) s p k .badArg) ∧
      ∀ q : Port, a.arg0.toNat = q.val →
        let notice : EventRecord :=
          { kind := .notice, reason := 0, port := some p, frame := none, generation := 0
            session := (s.session p).number, value := a.arg1 }
        let room := (s.queue q).overflow = none ∧ (s.queue q).ordinary.length ≤ 30
        ((s.session q).state ≠ .up → Refuses (.post p) s p k .peerDown) ∧
          ((s.session q).state = .up → room → Replies (.post p) s (s.placed q notice) p k .ok 0 0 0 0) ∧
          ((s.session q).state = .up → ¬room → Replies (.post p) s (s.placed q notice) p k .dropped 0 0 0 0)

/-- DETACH begins the closing: CLOSING with rejoin on in AWAIT_JOB, the announcement handed to the five blocks, result OK
(R161, R171, R173). A code that is not in the table of R153 is answered UNKNOWN and nothing else changes (R155). -/
def Obligations.DetachAndUnknown : Prop :=
  ∀ (s : State) (p : Port) (a : Args) (k : Bool),
    (s.Ready p 0x3F a k →
        Replies (.detach p) s
          { s with
            sessions := put s.sessions p { s.session p with
              state := .closing true .awaitJob, annEvent := true, annCommand := true, annWindow := true, annCopy := true }
            dirMail := s.dirMail ++ [.closing p] } p k .ok 0 0 0 0) ∧
      ∀ code, (∀ row ∈ ownerRows, row.1 ≠ code) → s.Ready p code a k → Refuses (.unknown p) s p k .unknown

/-! ## Bus cycles -/

/-- A strobe's falling edge that R186 does not take changes no state: with RST# low, at a DOWN port, with PRST# low, with
RDY low, which is exactly while a window read is in flight or a window access is delayed, with both strobes low, and with
both selects low or both high (R186, R187, R189). Where RD# was high before the edge, the lines of an earlier read are
released already (R187; that the release shows at this edge where no rising edge was sent is log 15). -/
def Obligations.UntakenCycleChangesNothing : Prop :=
  ∀ (s : State) (p : Port) (a : BitVec 15) (v : Word) (lo hi : Bool) (b : BusLevels),
    ¬s.Taken p ∨ b.otherLow = true ∨ b.wselLow = b.cselLow →
      let rdHigh := if s.rstLow then s else s.linesReleased p
      (s.rdyHigh p = true ↔ (s.window p).reading = none ∧ (s.window p).delayed = none) ∧
        exec (.windowRead p (.falls a b)) s = .next rdHigh ∧
        (∀ c ∈ [Instr.windowWrite p a v ⟨lo, hi⟩ b, .registerWrite p a v ⟨lo, hi⟩ b],
          exec c s = .next (if b.otherLow then s else rdHigh)) ∧
        (b.cselLow = true →
          ∀ c ∈ [Instr.ieWrite p v ⟨lo, hi⟩ ⟨b.wselLow, b.otherLow⟩, .pselWrite p v ⟨lo, hi⟩ ⟨b.wselLow, b.otherLow⟩,
              .evpop p v ⟨lo, hi⟩ ⟨b.wselLow, b.otherLow⟩, .commandWrite p v ⟨lo, hi⟩ ⟨b.wselLow, b.otherLow⟩,
              .overrun p v ⟨lo, hi⟩ ⟨b.wselLow, b.otherLow⟩, .closingRefusal p v ⟨lo, hi⟩ ⟨b.wselLow, b.otherLow⟩],
            exec c s = .next (if b.otherLow then s else rdHigh))

/-- A CMD write without the low lane changes nothing; with it, an UP port's is accepted while PENDING is off, with the
arguments as they stand, and discarded as an overrun while it is on, which OVERRUN then shows through the taking of the
pending command; a CLOSING port's is refused at once with CLOSING, and OVERRUN turns off (R152, R156, R157, R159). The
model's choices here: the three rows are the three answers to the one write (log 4); the lines of an earlier read are
released by then (log 15); a refusal leaves a command that is still pending as it stands (log 17); what turns OVERRUN off
is settled as log 18 says. -/
def Obligations.CmdWriteAnswered : Prop :=
  ∀ (s : State) (p : Port) (v : Word) (lo hi : Bool), s.Taken p →
    let c := s.command p
    let t := s.linesReleased p
    let code := v.extractLsb' 0 8
    let written (b : CommandBlock) : State := { t with commands := put s.commands p b }
    ∀ row ∈ [Instr.commandWrite p v ⟨lo, hi⟩ cselAlone, .overrun p v ⟨lo, hi⟩ cselAlone,
        .closingRefusal p v ⟨lo, hi⟩ cselAlone],
      (lo = false → exec row s = .next t) ∧
        (lo = true → (s.session p).state = .up → c.pendingCmd = none →
          exec row s =
            .next (written { c with cmd := code, pendingCmd := some ⟨code, c.args, c.overrun⟩ })) ∧
        (∀ k, lo = true → (s.session p).state = .up → c.pendingCmd = some k →
          exec row s =
            .next (written { c with overrun := true, pendingCmd := some { k with clearsOverrun := false } })) ∧
        ∀ rejoin step, lo = true → (s.session p).state = .closing rejoin step →
          exec row s =
            .next (written { c with
              cmd := code, overrun := false, result := .closing, res0 := 0, res1 := 0, res2 := 0, res3 := 0 })

/-- Writes of IE, PSEL and EVPOP: bit 0 is the enable and bits 1:0 the active profile, both ignored while CLOSING and
without the low lane; an EVPOP write with either lane removes the head of the queue (R78, R132, R135, R145, R165). The
lines of an earlier read are released by then (log 15). -/
def Obligations.IePselEvpopWrites : Prop :=
  ∀ (s : State) (p : Port) (v : Word) (lo hi : Bool), s.Taken p →
    let t := s.linesReleased p
    let q := s.queue p
    let up := lo = true ∧ (s.session p).state = .up
    (up → exec (.ieWrite p v ⟨lo, hi⟩ cselAlone) s =
        .next { t with queues := put s.queues p { q with enable := v.getLsbD 0 } }) ∧
      (¬up → exec (.ieWrite p v ⟨lo, hi⟩ cselAlone) s = .next t) ∧
      (∀ profile : Fin 4, v.toNat % 4 = profile.val → up →
        exec (.pselWrite p v ⟨lo, hi⟩ cselAlone) s =
          .next { t with windows := put s.windows p { s.window p with active := profile, dataOut := none } }) ∧
      (¬up → exec (.pselWrite p v ⟨lo, hi⟩ cselAlone) s = .next t) ∧
      (lo = false → hi = false → exec (.evpop p v ⟨lo, hi⟩ cselAlone) s = .next t) ∧
      (lo = true ∨ hi = true →
        (∀ e rest, q.ordinary = e :: rest →
          exec (.evpop p v ⟨lo, hi⟩ cselAlone) s = .next { t with queues := put s.queues p { q with ordinary := rest } }) ∧
        (q.ordinary = [] →
          exec (.evpop p v ⟨lo, hi⟩ cselAlone) s = .next { t with queues := put s.queues p { q with overflow := none } }))

/-- A control write at any offset, with CSEL# alone low: ARG0 to ARG3 take the bytes of the selected lanes, in CLOSING too
and with a command pending; IE, PSEL, CMD and EVPOP are the writes of their own rows; every other register ignores it
(R151, R162, R165). WINDOW_WRITE and REGISTER_WRITE are one falling edge of WR#, whose levels say which access it is
(R186; the model's choice, log 5). The lines of an earlier read are released by then (log 15). -/
def Obligations.RegisterWriteByOffset : Prop :=
  ∀ (s : State) (p : Port) (a : BitVec 15) (v : Word) (lo hi : Bool), s.Taken p →
    let t := s.linesReleased p
    let c := s.command p
    let offset := 2 * (a.toNat % 128)
    let lanes (old new : Word) : Prop :=
      new.extractLsb' 0 8 = (if lo then v else old).extractLsb' 0 8 ∧
        new.extractLsb' 8 8 = (if hi then v else old).extractLsb' 8 8
    let args (x : Args) : State := { t with commands := put s.commands p { c with args := x } }
    let row := exec (.registerWrite p a v ⟨lo, hi⟩ controlLevels) s
    (∀ b, exec (.windowWrite p a v ⟨lo, hi⟩ b) s = exec (.registerWrite p a v ⟨lo, hi⟩ b) s) ∧
      (offset = 0x12 → ∃ w, lanes c.args.arg0 w ∧ row = .next (args { c.args with arg0 := w })) ∧
      (offset = 0x14 → ∃ w, lanes c.args.arg1 w ∧ row = .next (args { c.args with arg1 := w })) ∧
      (offset = 0x16 → ∃ w, lanes c.args.arg2 w ∧ row = .next (args { c.args with arg2 := w })) ∧
      (offset = 0x18 → ∃ w, lanes c.args.arg3 w ∧ row = .next (args { c.args with arg3 := w })) ∧
      (offset = 0x06 → row = exec (.ieWrite p v ⟨lo, hi⟩ cselAlone) s) ∧
      (offset = 0x08 → row = exec (.pselWrite p v ⟨lo, hi⟩ cselAlone) s) ∧
      (offset = 0x10 → row = exec (.commandWrite p v ⟨lo, hi⟩ cselAlone) s) ∧
      (offset = 0x38 → row = exec (.evpop p v ⟨lo, hi⟩ cselAlone) s) ∧
      (offset ∉ [0x06, 0x08, 0x10, 0x12, 0x14, 0x16, 0x18, 0x38] → row = .next t)

/-- A control read, the falling edge of RD# with CSEL# alone low, places the register's word on D15 to D0 and changes
nothing else: the fields at the bits of R200, R201 and R202; offsets that R162 does not name read 0000h. A CLOSING port
reads PSEL as 0 and the fault record as empty (R97, R162, R163, R166, R191). That WINDOW_READ carries the edge is the
model's choice (log 16). -/
def Obligations.ControlReadsShowState : Prop :=
  ∀ (s : State) (p : Port) (a : BitVec 15), s.Taken p →
    let offset := 2 * (a.toNat % 128)
    let c := s.command p
    let up := (s.session p).state = .up
    ∃ w, exec (.windowRead p (.falls a controlLevels)) s =
        .next { s with windows := put s.windows p { s.window p with dataOut := some w } } ∧
      (offset = 0x00 → w = 0x4256) ∧
      (offset = 0x02 →
        w.extractLsb' 0 4 = 1 ∧ (w.extractLsb' 4 2).toNat = p.val ∧ w.getLsbD 6 = s.splitQuota ∧ w.getLsbD 7 = false ∧
          w.extractLsb' 8 8 = 0x40) ∧
      (offset = 0x04 → w.toNat = (s.session p).number.toNat) ∧
      (offset = 0x06 → w.toNat = (s.queue p).enable.toNat) ∧
      (offset = 0x08 → w.toNat = if up then (s.window p).active.val else 0) ∧
      (offset = 0x10 → w.toNat = c.cmd.toNat) ∧
      (offset = 0x12 → w = c.args.arg0) ∧ (offset = 0x14 → w = c.args.arg1) ∧
      (offset = 0x16 → w = c.args.arg2) ∧ (offset = 0x18 → w = c.args.arg3) ∧
      (offset = 0x1A →
        w.extractLsb' 0 8 = c.result.code ∧ w.extractLsb' 8 6 = 0 ∧ w.getLsbD 14 = c.overrun ∧
          w.getLsbD 15 = c.pendingCmd.isSome) ∧
      (offset = 0x1C → w = c.res0) ∧ (offset = 0x1E → w = c.res1) ∧ (offset = 0x20 → w = c.res2) ∧
      (offset = 0x22 → w = c.res3) ∧
      (offset ∈ [0x30, 0x32, 0x34, 0x36] → (s.queue p).ordinary = [] → (s.queue p).overflow = none →
        w = if offset = 0x32 then 0xFFFF else 0x0000) ∧
      (∀ e rest, (s.queue p).ordinary = e :: rest →
        (offset = 0x30 → w.extractLsb' 0 8 = e.kind.code ∧ w.extractLsb' 8 8 = e.reason) ∧
        (offset = 0x32 → w.extractLsb' 0 8 = portField e.port ∧ w.extractLsb' 8 8 = frameField e.frame) ∧
        (offset = 0x34 → w.extractLsb' 0 8 = e.generation ∧ w.extractLsb' 8 8 = e.session) ∧
        (offset = 0x36 → w = e.value)) ∧
      (∀ n, (s.queue p).ordinary = [] → (s.queue p).overflow = some n →
        (offset = 0x30 → w = 0x0011) ∧ (offset = 0x32 → w = 0xFFFF) ∧ (offset = 0x34 → w = 0x0000) ∧
          (offset = 0x36 → w = n)) ∧
      (offset = 0x3A → (s.queue p).ordinary.length ≤ 31 →
        w.toNat = (s.queue p).ordinary.length + (s.queue p).overflow.isSome.toNat) ∧
      (offset ∈ [0x40, 0x42, 0x44, 0x46] → ¬up ∨ (s.window p).fault = none →
        w = if offset = 0x44 then 0x00FF else 0x0000) ∧
      (∀ r, up → (s.window p).fault = some r →
        (offset = 0x40 →
          w.extractLsb' 0 8 = r.kind.code ∧ w.extractLsb' 8 4 = r.addr.extractLsb' 12 4 ∧ w.extractLsb' 12 3 = 0 ∧
            w.getLsbD 15 = (r.direction == .write)) ∧
        (offset = 0x42 → w = r.addr) ∧
        (offset = 0x44 → w.extractLsb' 0 8 = frameField r.frame ∧ w.extractLsb' 8 8 = 0) ∧
        (offset = 0x46 → w = r.count)) ∧
      (offset ∉ [0x00, 0x02, 0x04, 0x06, 0x08, 0x10, 0x12, 0x14, 0x16, 0x18, 0x1A, 0x1C, 0x1E, 0x20, 0x22, 0x30, 0x32,
          0x34, 0x36, 0x3A, 0x40, 0x42, 0x44, 0x46] → w = 0x0000)

/-! ## Window accesses -/

/-- The check of a window access (R75, R86, R87): the slot and the offset from the address, and the outcome by the port's
place in the frame record, the frame's state and the entry's access. -/
def Obligations.WindowAccessOutcome : Prop :=
  ∀ (s : State) (p : Port) (a : BitVec 15) (dir : Direction) (slot : Fin 16) (offset : BitVec 12),
    slot.val = a.toNat / 2048 → offset.toNat = 2 * (a.toNat % 2048) →
      let w := s.window p
      let entry := sel (sel w.profiles w.active) slot
      ((s.session p).state ≠ .up → s.checkAccess p a dir = .faulted .closing none) ∧
        ((s.session p).state = .up → entry = none → s.checkAccess p a dir = .faulted .unmapped none) ∧
        ∀ e, (s.session p).state = .up → entry = some e →
          let r := s.frame e.frame
          let held := r.state = .owned ∨ r.state = .offered
          let owner := r.owner = some p
          let reader := sel r.readers p = true
          (r.state = .free ∨ r.state = .scrubbing → s.checkAccess p a dir = .faulted .noFrame (some e.frame)) ∧
            (held → ¬owner → ¬reader → s.checkAccess p a dir = .faulted .noRight (some e.frame)) ∧
            (held → owner ∨ reader → dir = .read → s.checkAccess p a dir = .performed ⟨e.frame, offset⟩) ∧
            (held → reader → dir = .write → s.checkAccess p a dir = .faulted .readOnly (some e.frame)) ∧
            (held → owner → ¬reader → dir = .write → e.access = .ro →
              s.checkAccess p a dir = .faulted .readOnly (some e.frame)) ∧
            (owner → ¬reader → dir = .write → e.access = .rw → r.state = .offered →
              s.checkAccess p a dir = .faulted .suspended (some e.frame)) ∧
            (owner → ¬reader → dir = .write → e.access = .rw → r.state = .owned →
              s.checkAccess p a dir = .performed ⟨e.frame, offset⟩)

/-- A window read that is taken with the write hold empty: faulted, it ends with FFFFh and goes to the fault record,
with a FAULT event for the first fault and none for CLOSING; performed, RDY stays low and its claim is presented. With
the hold occupied it waits (R85, R89, R91, R92, R97, R187, R189). The lines of an earlier read are released by then (log
15). -/
def Obligations.WindowReadTaken : Prop :=
  ∀ (s : State) (p : Port) (a : BitVec 15), s.Taken p →
    let w := s.window p
    let addr := BitVec.ofNat 16 (2 * a.toNat)
    let bus (w : WindowUnit) : State := { s with windows := put s.windows p w }
    (∀ h, w.hold = some h →
        exec (.windowRead p (.falls a windowLevels)) s =
          .next (bus { w with
            dataOut := none
            delayed := some { direction := .read, a := a, data := 0, lo := false, hi := false } })) ∧
      (∀ f, w.hold = none → s.checkAccess p a .read = .faulted .closing f →
        exec (.windowRead p (.falls a windowLevels)) s = .next (bus { w with dataOut := some 0xFFFF })) ∧
      (∀ kind f, w.hold = none → s.checkAccess p a .read = .faulted kind f → kind ≠ .closing → w.fault = none →
        exec (.windowRead p (.falls a windowLevels)) s =
          .next ((bus { w with
              dataOut := some 0xFFFF
              fault := some { kind := kind, addr := addr, frame := f, direction := .read, count := 0 } }).withEvents
            (.windowUnit p) [(p, Event.fault kind addr)])) ∧
      (∀ kind f r, w.hold = none → s.checkAccess p a .read = .faulted kind f → kind ≠ .closing → w.fault = some r →
        exec (.windowRead p (.falls a windowLevels)) s =
          .next (bus { w with
            dataOut := some 0xFFFF
            fault := some { r with count := if r.count.toNat = 65535 then r.count else r.count + 1 } })) ∧
      ∀ place, w.hold = none → s.checkAccess p a .read = .performed place →
        exec (.windowRead p (.falls a windowLevels)) s =
          .next { bus { w with dataOut := none, reading := some place } with
            arbiter := { s.arbiter with presented := s.arbiter.presented ++ [.port p] } }

/-- A window write that is taken with the write hold empty: faulted, no byte changes and it goes to the fault record;
performed, it is held with its lanes and data and its claim is presented, and RDY is high again. With the hold occupied
it waits (R85, R89, R92, R97, R188, R189). The lines of an earlier read are released by then (log 15). -/
def Obligations.WindowWriteTaken : Prop :=
  ∀ (s : State) (p : Port) (a : BitVec 15) (v : Word) (lo hi : Bool), s.Taken p →
    let w := s.window p
    let addr := BitVec.ofNat 16 (2 * a.toNat)
    let bus (w : WindowUnit) : State := { s with windows := put s.windows p { w with dataOut := none } }
    let row := exec (.windowWrite p a v ⟨lo, hi⟩ windowLevels) s
    (∀ h, w.hold = some h →
        row =
          .next (bus { w with
            delayed := some { direction := .write, a := a, data := v, lo := lo, hi := hi } })) ∧
      (∀ f, w.hold = none → s.checkAccess p a .write = .faulted .closing f → row = .next (bus w)) ∧
      (∀ kind f, w.hold = none → s.checkAccess p a .write = .faulted kind f → kind ≠ .closing → w.fault = none →
        row =
          .next ((bus { w with
              fault := some { kind := kind, addr := addr, frame := f, direction := .write, count := 0 } }).withEvents
            (.windowUnit p) [(p, Event.fault kind addr)])) ∧
      (∀ kind f r, w.hold = none → s.checkAccess p a .write = .faulted kind f → kind ≠ .closing → w.fault = some r →
        row =
          .next (bus { w with
            fault := some { r with count := if r.count.toNat = 65535 then r.count else r.count + 1 } })) ∧
      ∀ place, w.hold = none → s.checkAccess p a .write = .performed place →
        row =
          .next { bus { w with hold := some { place := place, data := v, lo := lo, hi := hi } } with
            arbiter := { s.arbiter with presented := s.arbiter.presented ++ [.port p] } }

/-- A delayed access is taken once the hold is empty, as the same read or write at that moment, whether the port is UP
or CLOSING by then; data is driven only if RD# is still low (R85, R187, R189). The lines of an earlier read are released
by then (log 15). That it goes by the session state at that moment, in a new session too where DETACH closed the port
and it is UP again, is the model's choice (log 31). That this is a step of its own after the held write's carrying out,
at whose end R85 and R189 take the access, is log 32. -/
def Obligations.DelayedAccessTaken : Prop :=
  ∀ (s : State) (p : Port) (d : DelayedAccess) (rdLow : Bool), s.rstLow = false → (s.session p).state ≠ .down →
    (s.session p).prstLow = false → (s.window p).reading = none → (s.window p).hold = none →
      (s.window p).delayed = some d →
        let undelayed := s.setWindow p { s.window p with delayed := none }
        (d.direction = .read →
          ∃ t, exec (.windowRead p (.falls d.a windowLevels)) undelayed = .next t ∧
            exec (.delayedWindowAccess p true) s = .next t ∧
            exec (.delayedWindowAccess p false) s = .next (t.linesReleased p)) ∧
          (d.direction = .write →
            ∃ t, exec (.windowWrite p d.a d.data ⟨d.lo, d.hi⟩ windowLevels) undelayed = .next t ∧
              exec (.delayedWindowAccess p rdLow) s = .next t)

/-- A granted read takes the two bytes of its word as they stand, its grant ends, RDY goes high and the word is driven
if RD# is still low; the lines are released when RD# rises (log 15). A granted held write changes the bytes of its lanes
and no other, whatever the directory holds by then, and the hold is empty (R88, R90, R187, R188, R190, R191). That the
bytes of an access are read or changed in this one step is log 27. That an access delayed behind the write is left for a
step of its own is log 32. -/
def Obligations.GrantedAccessCarriedOut : Prop :=
  (∀ (s : State) (p : Port), s.rstLow = false → exec (.windowRead p .rises) s = .next (s.linesReleased p)) ∧
  ∀ (s : State) (p : Port) (rdLow : Bool), s.rstLow = false → s.arbiter.array = .held (.port p) →
    let w := s.window p
    let ended := { s.arbiter with array := .ended }
    let addr (place : WordPlace) := place.frame.val * 4096 + place.offset.toNat
    (∀ place, w.reading = some place →
        exec (.readCarriedOut p rdLow) s =
          .next { s with
            arbiter := ended
            windows := put s.windows p { w with
              reading := none
              dataOut :=
                if rdLow then some (s.mem.read (addr place + 1) ++ s.mem.read (addr place)) else none } }) ∧
      ∀ h, w.hold = some h → h.place.offset.toNat % 2 = 0 → s.mem.wf = true →
        ∃ m, exec (.writeCarriedOut p) s =
            .next { s with
              mem := m, arbiter := ended
              windows := put s.windows p { w with hold := none } } ∧
          ∀ x, Memory.read m x =
            if x = addr h.place ∧ h.lo = true then h.data.extractLsb' 0 8
            else if x = addr h.place + 1 ∧ h.hi = true then h.data.extractLsb' 8 8
            else s.mem.read x

/-! ## The SRAM Arbiter -/

/-- A claim that arrives at a free array with none waiting is granted, else it waits; at the end of a grant a port's
claim is granted, the first in cyclic order after the last port granted, else the engine other than the last granted,
else the one that waits, else the array is free; a Copy Engine claim for a fetch or a write-back of a port that is not
UP is returned unused, its job abandoned and no kick noted kept (R99, R124, R193, R194). The arrival of a piece waits
for a port's access to the frame scrubbed (R90, log 10). That a grant at an arrival sets the last port or engine
granted, as one at an end does, is the model's reading of R193 and R194 (log 20); that kick noted goes off at a returned
grant is its reading of R99, R112 and R124 (log 29). That a granted segment's claim holds the array, of a port that is
not UP too, and that its session state and rights are read at the beginning and not at the grant (R115, R124, R174) is
log 11. -/
def Obligations.ArbiterGrantsByRule : Prop :=
  ∀ s : State, s.rstLow = false →
    let b := s.arbiter
    let won (b : Arbiter) (c : Claimant) : Arbiter :=
      match c with
      | .port p => { b with array := .held c, waiting := b.waiting.erase c, lastPort := p }
      | .copy => { b with array := .held c, waiting := b.waiting.erase c, lastEngine := .copy }
      | .scrub => { b with array := .held c, waiting := b.waiting.erase c, lastEngine := .scrub }
    let returned (j : JobPlace) : Prop :=
      (s.copy.engine = .fetching j ∨ ∃ x, s.copy.engine = .writing x ∧ x.place = j) ∧ (s.session j.port).state ≠ .up
    let outcome (b : Arbiter) (c : Claimant) (t : State) : Prop :=
      (¬(c = .copy ∧ ∃ j, returned j) → t = { s with arbiter := won b c }) ∧
        ∀ j, c = .copy → returned j →
          t = { s with
            arbiter := { won b c with array := .ended }
            copy := { s.copy with
              rings := put s.copy.rings j.port { s.ring j.port with kickNoted := false } } }.withoutJob j.port
    let reaches (p : Port) (f : Frame) : Prop :=
      (∃ place, (s.window p).reading = some place ∧ place.frame = f) ∨
        ∃ h, (s.window p).hold = some h ∧ h.place.frame = f
    let waits : Prop := ∃ p f, .port p ∈ b.presented ∧ s.scrub.queue.head? = some f ∧ reaches p f
    (waits → exec (.arbiterGrant (.arrival .scrub)) s = .next s) ∧
      (∀ c, c ∈ b.presented → ¬(c = .scrub ∧ waits) →
        let arrived := { b with presented := b.presented.erase c }
        (b.array = .free → b.waiting = [] → ∃ t, exec (.arbiterGrant (.arrival c)) s = .next t ∧ outcome arrived c t) ∧
          (b.array ≠ .free ∨ b.waiting ≠ [] →
            exec (.arbiterGrant (.arrival c)) s =
              .next { s with arbiter := { arrived with waiting := b.waiting ++ [c] } })) ∧
      (b.array = .ended →
        let ends := exec (.arbiterGrant .endOfGrant) s
        let noPort := ∀ p, .port p ∉ b.waiting
        (∀ p : Port, .port p ∈ b.waiting →
            (∀ q : Port, .port q ∈ b.waiting → (p - b.lastPort - 1).val ≤ (q - b.lastPort - 1).val) →
              ∃ t, ends = .next t ∧ outcome b (.port p) t) ∧
          (noPort → .copy ∈ b.waiting → .scrub ∈ b.waiting →
            ∃ t, ends = .next t ∧ outcome b (if b.lastEngine = .copy then .scrub else .copy) t) ∧
          (noPort → .copy ∈ b.waiting → .scrub ∉ b.waiting → ∃ t, ends = .next t ∧ outcome b .copy t) ∧
          (noPort → .copy ∉ b.waiting → .scrub ∈ b.waiting → ∃ t, ends = .next t ∧ outcome b .scrub t) ∧
          (b.waiting = [] → ends = .next { s with arbiter := { b with array := .free } }))

/-! ## The Scrub Engine -/

/-- The engine, IDLE, takes up the head of the queue: HELD while the head's mark is on, else ZEROING with its first
piece requested. A granted piece makes its 256 bytes zero and no other byte changes; the next piece is requested, or the
sixteenth makes the engine REPORTING (R33, R34, R36). That a piece's bytes change at its end is log 27, and that pieces
done is 0 in HELD is log 28. -/
def Obligations.ScrubPiecesZeroFrame : Prop :=
  ∀ (s : State) (f : Frame) (rest : List Frame), s.rstLow = false → s.scrub.queue = f :: rest →
    let first := f.val * 4096 + s.scrub.pieces * 256
    let last := s.scrub.pieces = 15
    (s.scrub.phase = .idle → (s.frame f).mark = true →
        exec .scrubStart s = .next { s with scrub := { s.scrub with phase := .held, pieces := 0 } }) ∧
      (s.scrub.phase = .idle → (s.frame f).mark = false →
        exec .scrubStart s =
          .next { s with
            scrub := { s.scrub with phase := .zeroing, pieces := 0 }
            arbiter := { s.arbiter with presented := s.arbiter.presented ++ [.scrub] } }) ∧
      (s.scrub.phase = .zeroing → s.arbiter.array = .held .scrub → s.scrub.pieces < 16 → s.mem.wf = true →
        ∃ m, (∀ x, Memory.read m x = if first ≤ x ∧ x < first + 256 then 0 else s.mem.read x) ∧
          exec .pieceEnd s =
            .next { s with
              mem := m
              scrub := { s.scrub with
                phase := if last then .reporting else .zeroing, pieces := s.scrub.pieces + 1 }
              arbiter := { s.arbiter with
                array := .ended
                presented := if last then s.arbiter.presented else s.arbiter.presented ++ [.scrub] } })

/-- At scrub done the frame is FREE with its label 0000h, or its reserver's with generation + 1 and CLAIM_GRANTED; it
leaves the head of the queue, and the engine takes up the new head (R38, R39, R40). That pieces done is 0 in IDLE and
HELD is log 28. -/
def Obligations.ScrubDoneFreesOrGrants : Prop :=
  ∀ (s : State) (f : Frame) (rest : List Frame), s.rstLow = false → s.scrub.queue = f :: rest →
    s.scrub.phase = .reporting →
      let r := s.frame f
      let cleared : FrameRecord :=
        { r with
          state := .free, owner := none, readers := Vector.replicate 4 false, label := 0, fallback := none
          offer := none, reservation := none }
      let after (t : State) : State :=
        match rest with
        | [] => { t with scrub := { queue := [], phase := .idle, pieces := 0 } }
        | g :: _ =>
          if (s.frame g).mark then { t with scrub := { queue := rest, phase := .held, pieces := 0 } }
          else
            { t with
              scrub := { queue := rest, phase := .zeroing, pieces := 0 }
              arbiter := { s.arbiter with presented := s.arbiter.presented ++ [.scrub] } }
      (r.reservation = none → exec .scrubDone s = .next (after (s.setFrame f cleared))) ∧
        ∀ p, r.reservation = some p →
          exec .scrubDone s =
            .next (after ((s.setFrame f { cleared with
                state := .owned, owner := some p, generation := r.generation + 1 }).withEvents .directory
              [(p, Event.claimGranted f (r.generation + 1))]))

/-! ## The Tick Timer -/

/-- A tick lowers every offer with a timeout by 1, and those at 1 expire in ascending frame number: the frame returns to
OWNED, the offer leaves its inbox, the offerer gets OFFER_EXPIRED and the recipient OFFER_CANCELLED (EXPIRED)
(R50, R51, R52). A tick leaves no offer at 0 behind; EXPIRY of one found at 0 has the same effect on its frame, and on any
other frame changes nothing (the model's choice, log 12). TICK lets the periods before the 25 000th pass, and its tick is
that period's, so the count starts again from 0 (R199; the model's choice, log 13). -/
def Obligations.TickLowersAndExpires : Prop :=
  ∀ s : State, s.rstLow = false →
    let expires (f : Frame) : Bool := (s.frame f).offer.any fun o => o.timeout != 0 && o.remaining == 1
    let expiry (f : Frame) (o : Offer) : List (Port × EventRecord) :=
      [(o.offerer, Event.offerExpired o.recipient f), (o.recipient, Event.offerCancelled o.offerer f .expired)]
    (s.FramesLegal → s.InboxesLegal →
        ∃ (frames : Vector FrameRecord 64) (inboxes : Vector (List Frame) 4),
          (∀ f, sel frames f =
            match (s.frame f).offer with
            | none => s.frame f
            | some o =>
              if o.timeout = 0 then s.frame f
              else if o.remaining = 1 then { s.frame f with state := .owned, offer := none }
              else { s.frame f with offer := some { o with remaining := o.remaining - 1 } }) ∧
          (∀ p, sel inboxes p = (s.inbox p).filter fun f => !expires f) ∧
          exec .tick s =
            .next ({ s with tickCount := 0, frames := frames, inboxes := inboxes }.withEvents .directory
              ((allFrames.filter expires).flatMap fun f => (s.frame f).offer.toList.flatMap (expiry f)))) ∧
      ∀ f,
        (∀ o, (s.frame f).offer = some o → o.frame = f → o.timeout ≠ 0 → o.remaining = 0 →
            exec (.expiry f) s =
              .next (((s.setFrame f { s.frame f with state := .owned, offer := none }).setInbox o.recipient
                  ((s.inbox o.recipient).erase f)).withEvents .directory (expiry f o))) ∧
          ((∀ o, (s.frame f).offer = some o → o.timeout = 0 ∨ o.remaining ≠ 0) → exec (.expiry f) s = .next s)

/-! ## The Copy Engine -/

/-- SELECTION: of the ACTIVE rings of UP ports, the first in cyclic order after the pointer is selected, the pointer names
its port, its head descriptor's job is current and its fetch is requested; with none nothing changes (R111). -/
def Obligations.SelectionTakesNextRing : Prop :=
  ∀ s : State, s.rstLow = false → s.copy.engine = .free →
    let eligible (p : Port) : Prop := (s.ring p).state = .active ∧ (s.session p).state = .up
    ((∀ p, ¬eligible p) → exec .selection s = .next s) ∧
      ∀ (p : Port) (c : RingConfig), eligible p → (s.ring p).config = some c →
        (∀ q, eligible q → (p - s.copy.pointer - 1).val ≤ (q - s.copy.pointer - 1).val) →
          let head := (s.ring p).head
          exec .selection s =
            .next { s with
              copy := { s.copy with
                pointer := p
                engine := .fetching { port := p, ringFrame := c.frame, offset := c.base + head * 32, index := head } }
              arbiter := { s.arbiter with presented := s.arbiter.presented ++ [.copy] } }

/-- The end of a fetch: OWN 0 forms no job and decides the ring's state by kick noted; OWN 1 forms the job from the
descriptor's fields and the first failing check of R113 decides its status, or its first segment is requested. Kick
noted is off. The job of a port whose announcement the engine has taken is abandoned (R112, R113, R124, R203). That the
descriptor is read in this one step is log 27. -/
def Obligations.FetchEndValidates : Prop :=
  ∀ (s : State) (j : JobPlace), s.rstLow = false → s.arbiter.array = .held .copy → s.copy.engine = .fetching j →
    let byte (n : Nat) : Byte := s.mem.read (j.ringFrame.val * 4096 + j.offset + n)
    let word (n : Nat) : Word := byte (n + 1) ++ byte n
    let ended := { s.arbiter with array := .ended }
    let g := s.ring j.port
    let becomes (state : RingState) (e : EngineState) (b : Arbiter) : State := { s with
      copy := { s.copy with rings := put s.copy.rings j.port { g with state := state, kickNoted := false }, engine := e }
      arbiter := b }
    let requests (e : EngineState) : State :=
      becomes g.state e { ended with presented := s.arbiter.presented ++ [.copy] }
    let fails (status : DescStatus) : State :=
      requests (.writing { place := j, control := word 0, status := status, done := 0, sum := 0 })
    let length := (word 2).toNat
    let bad := length = 0 ∨ 4096 < length ∨ 64 ≤ (byte 4).toNat ∨ 64 ≤ (byte 8).toNat ∨
      4096 < (word 6).toNat + length ∨ 4096 < (word 10).toNat + length
    (sel s.copy.owed j.port = true → exec .fetchEnd s = .next ({ s with arbiter := ended }.withoutJob j.port)) ∧
      (sel s.copy.owed j.port = false → (word 0).getLsbD 0 = false → g.state = .active →
        exec .fetchEnd s = .next (becomes (if g.kickNoted then .active else .idle) .free ended)) ∧
      (sel s.copy.owed j.port = false → (word 0).getLsbD 0 = false → g.state = .stopping →
        exec .fetchEnd s = .next (becomes .stopped .free ended)) ∧
      (sel s.copy.owed j.port = false → (word 0).getLsbD 0 = true → bad →
        exec .fetchEnd s = .next (fails .badDescriptor)) ∧
      ∀ source dest : Frame, sel s.copy.owed j.port = false → (word 0).getLsbD 0 = true → ¬bad →
        (byte 4).toNat = source.val → (byte 8).toNat = dest.val →
          let job : Job :=
            { place := j, control := word 0, source := source, sourceOffset := (word 6).toNat, sourceGen := byte 5
              dest := dest, destOffset := (word 10).toNat, destGen := byte 9, length := length, done := 0, sum := 0 }
          let reads := s.ReadRight j.port source
          let writes := s.WriteRight j.port dest
          (¬reads → exec .fetchEnd s = .next (fails .noSourceRight)) ∧
            (reads → ¬writes → exec .fetchEnd s = .next (fails .noDestRight)) ∧
            (reads → writes → ¬s.GenerationsHold job → exec .fetchEnd s = .next (fails .stale)) ∧
            (reads → writes → s.GenerationsHold job → exec .fetchEnd s = .next (requests (.waiting job)))

/-- The beginning of a granted segment: of a port that is not UP, the job is abandoned and the grant returned; where the
rights hold the marks of its two frames are set and the segment is in flight; else the grant is returned, and the job
ends with the failing test's status, or ACCESS_LOST once a segment has completed (R115, R124). That a port which has
become the owner of its job's source frame, by inheritance or ACCEPT, passes as owner (R25, beside R29, R117 and R126)
is the model's choice, log 30. That the grant of a segment and its beginning are two steps is log 11. -/
def Obligations.SegmentBeginTestsRights : Prop :=
  ∀ (s : State) (j : Job), s.rstLow = false → s.arbiter.array = .held .copy → s.copy.engine = .waiting j →
    let p := j.place.port
    let ended := { s.arbiter with array := .ended }
    let up := (s.session p).state = .up
    let reads := s.ReadRight p j.source
    let writes := s.WriteRight p j.dest
    let fails (status : DescStatus) : State := { s with
      copy := { s.copy with
        engine := .writing ⟨j.place, j.control, if j.done = 0 then status else .accessLost, j.done, j.sum⟩ }
      arbiter := { ended with presented := s.arbiter.presented ++ [.copy] } }
    (¬up → exec .segmentBegin s = .next ({ s with arbiter := ended }.withoutJob p)) ∧
      (up → ¬reads → exec .segmentBegin s = .next (fails .noSourceRight)) ∧
      (up → reads → ¬writes → exec .segmentBegin s = .next (fails .noDestRight)) ∧
      (up → reads → writes → ¬s.GenerationsHold j → exec .segmentBegin s = .next (fails .stale)) ∧
      (up → reads → writes → s.GenerationsHold j →
        ∃ frames : Vector FrameRecord 64,
          (∀ f, sel frames f =
            { s.frame f with mark := (s.frame f).mark || f == j.source || f == j.dest }) ∧
          exec .segmentBegin s = .next { s with frames := frames, copy := { s.copy with engine := .transferring j } })

/-- The end of a segment: its bytes stand in the destination as if copied one at a time in ascending order, no other
byte changes, its marks are off, bytes done and the sum of its 16-bit little-endian words are added, the array is
released and a HELD scrub begins; then the next segment, or the write-back with OK, is requested, or the job of a port
whose announcement the engine has taken is abandoned (R33, R34, R114, R116, R119, R124). That a segment's bytes change
at its end is log 27. -/
def Obligations.SegmentEndMovesBytes : Prop :=
  ∀ (s : State) (j : Job), s.rstLow = false → s.arbiter.array = .held .copy → s.copy.engine = .transferring j →
    State.Job.Legal j → s.mem.wf = true → s.ScrubLegal → s.MarksLegal →
      let n := min 256 (j.length - j.done)
      let source := j.source.val * 4096 + j.sourceOffset + j.done
      let dest := j.dest.val * 4096 + j.destOffset + j.done
      let owed := sel s.copy.owed j.place.port = true
      let held := s.scrub.phase = .held
      ∃ (m : Memory) (frames : Vector FrameRecord 64),
        (∀ i, i < n → Memory.read m (dest + i) =
          if source < dest ∧ dest ≤ source + i then Memory.read m (source + i) else s.mem.read (source + i)) ∧
        (∀ x, x < dest ∨ dest + n ≤ x → Memory.read m x = s.mem.read x) ∧
        (∀ f, sel frames f = { s.frame f with mark := (s.frame f).mark && f != j.source && f != j.dest }) ∧
        let moved : Nat :=
          ((List.range n).map fun i => (Memory.read m (dest + i)).toNat * if i % 2 = 0 then 1 else 256).sum
        let sum := j.sum + BitVec.ofNat 32 moved
        let after (l : List Claimant) : State := { s with
          mem := m, frames := frames
          scrub := if held then { s.scrub with phase := .zeroing, pieces := 0 } else s.scrub
          arbiter := { s.arbiter with
            array := .ended, presented := s.arbiter.presented ++ l ++ if held then [.scrub] else [] } }
        let requests (e : EngineState) : State := { after [.copy] with copy := { s.copy with engine := e } }
        (owed → exec .segmentEnd s = .next ((after []).withoutJob j.place.port)) ∧
          (¬owed → j.done + n < j.length →
            exec .segmentEnd s = .next (requests (.waiting { j with done := j.done + n, sum := sum }))) ∧
          (¬owed → j.length ≤ j.done + n →
            exec .segmentEnd s =
              .next (requests (.writing ⟨j.place, j.control, .ok, j.length, sum⟩)))

/-- The end of a write-back: of the descriptor's 32 bytes only 0, 1 and 12 to 19 change, to OWN 0 with the other control
bits kept, the status, 0, bytes done and the checksum (0 without SUM); the ring's last status, head and state follow, an
UNSET ring staying as it is; COPY_DONE, nothing or RING_STOPPED is handed over; the engine is FREE (R119, R121, R124,
R203). That a write-back's bytes change at its end is log 27. -/
def Obligations.WriteBackEndWritesDescriptor : Prop :=
  ∀ (s : State) (w : WriteBack), s.rstLow = false → s.arbiter.array = .held .copy → s.copy.engine = .writing w →
    w.place.offset + 32 ≤ 4096 → s.mem.wf = true →
      let p := w.place.port
      let a := w.place.ringFrame.val * 4096 + w.place.offset
      let g := s.ring p
      let written : Ring :=
        match g.config with
        | none => g
        | some c =>
          { g with
            lastStatus := w.status
            head := if g.head + 1 < c.size then g.head + 1 else 0
            state := if w.status = .ok ∧ g.state = .active then .active else .stopped }
      let events : List (Port × EventRecord) :=
        if w.status ≠ .ok then [(p, Event.ringStopped w.place.index w.status)]
        else if w.control.getLsbD 1 then [(p, Event.copyDone w.place.index)] else []
      ∃ m : Memory,
        (∀ x, x < a ∨ a + 2 ≤ x ∧ x < a + 12 ∨ a + 20 ≤ x → Memory.read m x = s.mem.read x) ∧
        Memory.read m (a + 1) ++ Memory.read m a = w.control &&& 0xFFFE ∧
        Memory.read m (a + 12) = w.status.code ∧ Memory.read m (a + 13) = 0 ∧
        Memory.read m (a + 15) ++ Memory.read m (a + 14) = BitVec.ofNat 16 w.done ∧
        Memory.read m (a + 19) ++ Memory.read m (a + 18) ++ Memory.read m (a + 17) ++ Memory.read m (a + 16) =
          (if w.control.getLsbD 2 then w.sum else 0) ∧
        exec .writeBackEnd s =
          .next (({ s with
              mem := m
              copy := { s.copy with rings := put s.copy.rings p written }
              arbiter := { s.arbiter with array := .ended } }.withEvents .copyEngine events).withoutJob p)

/-! ## Events, sessions and teardown -/

/-- The Event Unit takes the oldest hand-over of a producer whole, each event in the order listed and placed by the four
rows of R130; with none waiting nothing changes (R130, R131; log 6). IRQ# of a port is asserted exactly while RST# is high,
its enable is on and its queue holds an event (R146, R196). -/
def Obligations.EventArrivalPlacesEvents : Prop :=
  (∀ (s : State) (p : Port), s.irqAsserted p = true ↔ s.rstLow = false ∧ (s.queue p).enable = true ∧
    ((s.queue p).ordinary ≠ [] ∨ (s.queue p).overflow ≠ none)) ∧
  ∀ (s : State) (source : Producer), s.rstLow = false →
    ((∀ h ∈ s.handovers, h.source ≠ source) → exec (.eventArrival source) s = .next s) ∧
      ∀ before h after, s.handovers = before ++ h :: after → h.source = source → (∀ g ∈ before, g.source ≠ source) →
        exec (.eventArrival source) s =
          .next (h.events.foldl (fun t e => t.placed e.1 e.2) { s with handovers := before ++ after })

/-- PRST# asserted at an UP port begins its closing with rejoin off, in CLOSING turns rejoin off, and its bus lets the
lines go and drops the access that waits behind a held write, so that RDY is high unless a read is in flight; released
at a DOWN port it makes it UP in the next session, in CLOSING it turns rejoin on (R169, R170, R172, R173, R189, R192).
That the waiting access goes at the assertion, as R192 has RDY high then, and not when the hold empties is log 23. That
a change to the level already taken is nothing is log 21; that an access which the emptied hold has freed is dropped as
well is the model's choice, log 23; that the entry to UP drops every hand-over on its way to the port is the model's
reading of R130, R143, R148 and R181, log 7. -/
def Obligations.PrstChangesSession : Prop :=
  ∀ (s : State) (p : Port), s.rstLow = false →
    let r := s.session p
    let w := s.window p
    let bus : Vector WindowUnit 4 := put s.windows p { w with dataOut := none, delayed := none }
    (r.prstLow = false →
        (r.state = .up →
          exec (.prstAsserted p) s =
            .next ({ s with windows := bus }.enteredClosing p { r with prstLow := true } false)) ∧
        (∀ rejoin step, r.state = .closing rejoin step →
          exec (.prstAsserted p) s =
            .next { s with
              windows := bus
              sessions := put s.sessions p { r with prstLow := true, state := .closing false step } }) ∧
        exec (.prstReleased p) s = .next s) ∧
      (r.prstLow = true →
        (r.state = .down → exec (.prstReleased p) s = .next (s.enteredUp p { r with prstLow := false })) ∧
        (∀ rejoin step, r.state = .closing rejoin step →
          exec (.prstReleased p) s =
            .next { s with
              sessions := put s.sessions p { r with prstLow := false, state := .closing true step } }) ∧
        exec (.prstAsserted p) s = .next s)

/-- A closing at the Event Unit empties the port's queue, turns its enable off and tells every other UP port with
PEER_DOWN; an entry to UP tells every other UP port with PEER_UP and the new session number; a closing at the Window Unit
makes every entry invalid, profile 0 active and the fault record empty (R96, R142, R143, R148). The closing waits for an
earlier entry to UP that is not yet taken (R144, log 9). -/
def Obligations.ClosingAtEventAndWindowUnits : Prop :=
  ∀ (s : State) (p : Port), s.rstLow = false →
    let r := s.session p
    let others := [(0 : Port), 1, 2, 3].filter fun q => q != p
    (r.annEvent = true → r.peerUp = none →
        exec (.eventUnitClosing p) s =
          .next (others.foldl (fun t q => t.placed q (Event.peerDown p r.number)) { s with
            queues := put s.queues p { ordinary := [], overflow := none, enable := false }
            sessions := put s.sessions p { r with annEvent := false } })) ∧
      (r.peerUp ≠ none → exec (.eventUnitClosing p) s = .next s) ∧
      (∀ n, r.peerUp = some n →
        exec (.peerUp p) s =
          .next (others.foldl (fun t q => t.placed q (Event.peerUp p n)) { s with
            sessions := put s.sessions p { r with peerUp := none } })) ∧
      (r.annWindow = true →
        exec (.windowUnitClosing p) s =
          .next { s with
            windows := put s.windows p { s.window p with
              profiles := Vector.replicate 4 (Vector.replicate 16 none), active := 0, fault := none }
            sessions := put s.sessions p { r with annWindow := false } })

/-- The announcement at the directory: the port's grants, the fallbacks that name it and its reservations go, the offers in
its inbox return to their offerers with OFFER_RETURNED in inbox order, its own offers are cancelled with OFFER_CANCELLED
(PEER_DOWN) in ascending frame number, and it is no longer UP in the directory's view (R26, R67, R68, R69). -/
def Obligations.DirectoryClosingSettlesOffers : Prop :=
  ∀ (s : State) (p : Port) (rest : List DirMail), s.rstLow = false → s.dirMail = .closing p :: rest →
    s.FramesLegal → s.InboxesLegal →
      let made (f : Frame) : Bool := (s.frame f).offer.any fun o => o.offerer == p
      let ended (f : Frame) : Bool := (s.frame f).offer.any fun o => o.offerer == p || o.recipient == p
      ∃ (frames : Vector FrameRecord 64) (inboxes : Vector (List Frame) 4),
        (∀ f, sel frames f =
          { s.frame f with
            readers := put (s.frame f).readers p false
            fallback := if (s.frame f).fallback = some p then none else (s.frame f).fallback
            reservation := if (s.frame f).reservation = some p then none else (s.frame f).reservation
            state := if ended f then .owned else (s.frame f).state
            offer := if ended f then none else (s.frame f).offer }) ∧
        (∀ q, sel inboxes q = if q = p then [] else (s.inbox q).filter fun f => !made f) ∧
        exec (.directoryClosing p) s =
          .next ({ s with
              frames := frames, inboxes := inboxes, closingTaken := put s.closingTaken p true
              dirMail := rest }.withEvents .directory
            (((s.inbox p).flatMap fun f =>
                (s.frame f).offer.toList.map fun o : Offer => (o.offerer, Event.offerReturned p f)) ++
              (allFrames.filter made).flatMap fun f =>
                (s.frame f).offer.toList.map fun o : Offer => (o.recipient, Event.offerCancelled p f .peerDown)))

/-- The announcement at the Copy Engine: the ring is UNSET; with no job of the port current, or with its claim not yet
granted, or with a granted segment not yet begun, the job is gone and reported at once, its claim withdrawn or its grant
returned; a fetch, segment or write-back that holds the array ends first and the report is owed (R124, R125; a grant not
yet begun is log 11). -/
def Obligations.CopyEngineClosingByPoint : Prop :=
  ∀ (s : State) (p : Port), s.rstLow = false → (s.session p).annCopy = true →
    let r := { s.session p with annCopy := false }
    let rings := put s.copy.rings p
      { state := .unset, config := none, head := 0, lastStatus := .ok, kickNoted := false }
    let granted := s.arbiter.array = .held .copy
    let gone (b : Arbiter) : State := { s with
      sessions := put s.sessions p { r with jobGone := true }
      copy := { s.copy with rings := rings, engine := .free, owed := put s.copy.owed p false }
      arbiter := b }
    let withdrawn := { s.arbiter with
      presented := s.arbiter.presented.erase .copy, waiting := s.arbiter.waiting.erase .copy }
    let owes : State := { s with
      sessions := put s.sessions p r
      copy := { s.copy with rings := rings, owed := put s.copy.owed p true } }
    let row := exec (.copyEngineClosing p) s
    ((∀ j ∈ s.copy.engine.place?, j.port ≠ p) →
        row = .next { s with
          sessions := put s.sessions p { r with jobGone := true }, copy := { s.copy with rings := rings } }) ∧
      (∀ j, s.copy.engine = .fetching j → j.port = p → ¬granted → row = .next (gone withdrawn)) ∧
      (∀ j, s.copy.engine = .fetching j → j.port = p → granted → row = .next owes) ∧
      (∀ j, s.copy.engine = .waiting j → j.place.port = p → ¬granted → row = .next (gone withdrawn)) ∧
      (∀ j, s.copy.engine = .waiting j → j.place.port = p → granted →
        row = .next (gone { s.arbiter with array := .ended })) ∧
      (∀ j, s.copy.engine = .transferring j → j.place.port = p → row = .next owes) ∧
      (∀ w, s.copy.engine = .writing w → w.place.port = p → ¬granted → row = .next (gone withdrawn)) ∧
      (∀ w, s.copy.engine = .writing w → w.place.port = p → granted → row = .next owes)

/-- The job-gone report in AWAIT_JOB moves the teardown to AWAIT_DISPOSAL and requests the disposal; the disposal-done
report completes it: UP in the next session with rejoin on, else DOWN (R172, R178, R179). That it completes once all
five blocks have taken the announcement (R180, R181), and not the Copy Engine and the directory alone (R178, R182), is
the model's choice, log 8; that an entry to UP drops every hand-over on its way to the port is the model's reading of
R130, R143, R148 and R181 (log 7). -/
def Obligations.TeardownReportsMoveOn : Prop :=
  ∀ (s : State) (p : Port) (rejoin : Bool), s.rstLow = false →
    let r := s.session p
    let settled := r.annEvent = false ∧ r.annCommand = false ∧ r.annWindow = false ∧ r.annCopy = false ∧
      .closing p ∉ s.dirMail ∧ .dispose p ∉ s.dirMail
    let done := { r with disposalDone := false }
    (r.state = .closing rejoin .awaitJob → r.jobGone = true →
        exec (.jobGone p) s =
          .next { s with
            sessions := put s.sessions p { r with state := .closing rejoin .awaitDisposal, jobGone := false }
            dirMail := s.dirMail ++ [.dispose p] }) ∧
      (r.state = .closing rejoin .awaitDisposal → r.disposalDone = true → settled → rejoin = false →
        exec (.disposalDone p) s = .next { s with sessions := put s.sessions p { done with state := .down } }) ∧
      (r.state = .closing rejoin .awaitDisposal → r.disposalDone = true → settled → rejoin = true →
        exec (.disposalDone p) s = .next (s.enteredUp p done)) ∧
      (¬settled → exec (.disposalDone p) s = .next s)

/-- The disposal of a port's frames, whole, in ascending frame number: a frame whose fallback is UP and, in SPLIT mode,
below its quota with the frames it has inherited before, passes to it with generation + 1 and FRAME_INHERITED; any other
is given up to the scrub; READ_REVOKED goes to the readers, with OWNER_CHANGED or RELEASED (R11, R16, R28, R29). -/
def Obligations.DisposalPassesOrReleases : Prop :=
  ∀ (s : State) (p : Port) (rest : List DirMail), s.rstLow = false → s.dirMail = .dispose p :: rest →
    s.dirUp p = false → s.FramesLegal →
      let owns (f : Frame) : Bool := (s.frame f).owner == some p
      let before (f : Frame) (q : Port) : Nat :=
        (allFrames.filter fun g => decide (g < f) && owns g && (s.frame g).fallback == some q).length
      let heir (f : Frame) : Option Port :=
        match (s.frame f).fallback with
        | none => none
        | some q =>
          if s.dirUp q = true ∧ (s.splitQuota = true → s.quotaCount q + before f q < 16) then some q else none
      let freed (f : Frame) : Bool := owns f && (heir f).isNone
      let revoked (f : Frame) (spared : Option Port) (reason : RevokeReason) : List (Port × EventRecord) :=
        (allPorts.filter fun q => sel (s.frame f).readers q && some q != spared).map fun q =>
          (q, Event.readRevoked p f reason)
      ∃ frames : Vector FrameRecord 64,
        (∀ f, sel frames f =
          let r := s.frame f
          if owns f then
            match heir f with
            | some q =>
              { r with
                state := .owned, owner := some q, generation := r.generation + 1
                readers := Vector.replicate 4 false, fallback := none, offer := none }
            | none =>
              { r with
                state := .scrubbing, owner := none, readers := Vector.replicate 4 false, fallback := none
                offer := none }
          else r) ∧
        exec (.disposal p) s =
          .next ({ s with
              frames := frames
              scrub := { s.scrub with queue := s.scrub.queue ++ allFrames.filter freed }
              sessions := put s.sessions p { s.session p with disposalDone := true }
              dirMail := rest }.withEvents .directory
            ((allFrames.filter owns).flatMap fun f =>
              match heir f with
              | some q =>
                revoked f (some q) .ownerChanged ++
                  [(q, Event.frameInherited p f ((s.frame f).generation + 1) (s.frame f).label)]
              | none => revoked f none .released))

/-! ## Chip reset -/

/-- The assertion of RST# abandons work in progress: no claim, no grant, no current job, no mark, nothing pending,
handed over or announced, every bus released; each byte of the array stands as it did or as the grant cut short would
have left it, and all of it as it did where none was in progress (R43, R100, R189, R193, R197; which bytes are cut short
is a free value, log 14; what is abandoned at once is log 24). That kick noted goes off here is log 29. -/
def Obligations.RstAssertedAbandonsWork : Prop :=
  ∀ s : State, s.rstLow = false → s.mem.wf = true →
    ∃ (m : Memory) (frames : Vector FrameRecord 64) (rings : Vector Ring 4) (windows : Vector WindowUnit 4)
      (commands : Vector CommandBlock 4) (sessions : Vector SessionRecord 4),
      (s.arbiter.array = .free ∨ s.arbiter.array = .ended → m = s.mem) ∧
      (∀ c t x, s.arbiter.array = .held c →
        (match c with
          | .port p => exec (.writeCarriedOut p) s = .next t
          | .scrub => exec .pieceEnd s = .next t
          | .copy =>
            if s.copy.engine.segment?.isSome then exec .segmentEnd s = .next t else exec .writeBackEnd s = .next t) →
        Memory.read m x = s.mem.read x ∨ Memory.read m x = t.mem.read x) ∧
      (∀ f, sel frames f = { s.frame f with mark := false }) ∧
      (∀ p, sel rings p = { s.ring p with kickNoted := false } ∧
        sel windows p = { s.window p with hold := none, reading := none, delayed := none, dataOut := none } ∧
        sel commands p = { s.command p with pendingCmd := none } ∧
        sel sessions p =
          { s.session p with
            annEvent := false, annCommand := false, annWindow := false, annCopy := false, jobGone := false
            disposalDone := false, peerUp := none }) ∧
      exec .rstAsserted s =
        .next { s with
          rstLow := true, mem := m, frames := frames, dirMail := [], windows := windows
          copy := { s.copy with rings := rings, engine := .free, owed := Vector.replicate 4 false }
          handovers := [], commands := commands, sessions := sessions
          arbiter := { s.arbiter with array := .free, presented := [], waiting := [] }, draws := s.draws + 1 }

/-- The rising edge of RST# samples QMODE and each PRST# and gives every block its chip-reset state; the array keeps its
bytes (R3, R11, R31, R43, R77, R100, R129, R150, R168, R194, R198). With QMODE low and every PRST# high that is State.reset
(those pin levels are the model's choice, log 1). -/
def Obligations.RisingEdgeGivesResetState : Prop :=
  (∀ (s : State) (qmode : Bool) (prst : Vector Bool 4), s.rstLow = true →
      ∃ (closed : Vector Bool 4) (sessions : Vector SessionRecord 4),
        (∀ p, sel closed p = !(sel prst p) ∧
          sel sessions p =
            { state := if sel prst p then .up else .down, number := if sel prst p then 1 else 0
              prstLow := !(sel prst p), annEvent := false, annCommand := false, annWindow := false, annCopy := false
              jobGone := false, disposalDone := false, peerUp := none }) ∧
        exec (.rstRisingEdge qmode prst) s =
          .next { s with
            rstLow := false, splitQuota := qmode
            frames := Vector.replicate 64
              { state := .scrubbing, owner := none, readers := Vector.replicate 4 false, generation := 0, label := 0
                fallback := none, offer := none, reservation := none, mark := false }
            inboxes := Vector.replicate 4 [], closingTaken := closed, dirMail := []
            scrub := { queue := allFrames, phase := .zeroing, pieces := 0 }, tickCount := 0
            windows := Vector.replicate 4
              { profiles := Vector.replicate 4 (Vector.replicate 16 none), active := 0, fault := none, hold := none
                reading := none, delayed := none, dataOut := none }
            copy :=
              { rings := Vector.replicate 4
                  { state := .unset, config := none, head := 0, lastStatus := .ok, kickNoted := false }
                engine := .free, pointer := 3, owed := Vector.replicate 4 false }
            queues := Vector.replicate 4 { ordinary := [], overflow := none, enable := false }
            handovers := []
            commands := Vector.replicate 4
              { cmd := 0, args := { arg0 := 0, arg1 := 0, arg2 := 0, arg3 := 0 }, pendingCmd := none, overrun := false
                result := .ok, res0 := 0, res1 := 0, res2 := 0, res3 := 0 }
            sessions := sessions
            arbiter :=
              { array := .free, presented := [.scrub], waiting := [], lastPort := 3, lastEngine := .copy } }) ∧
    exec (.rstRisingEdge false (Vector.replicate 4 true)) { State.reset with rstLow := true } = .next State.reset

/-! ## Invariants that every step keeps -/

/-- The state after reset meets every invariant below. -/
def Obligations.ResetMeetsInvariants : Prop :=
  State.reset.mem.wf = true ∧ State.reset.FramesLegal ∧ State.reset.QuotaKept ∧ State.reset.MarksLegal ∧
    State.reset.GrantsLegal ∧ State.reset.InboxesLegal ∧ State.reset.ScrubLegal ∧ State.reset.PinsLegal ∧
    State.reset.ViewLegal ∧ State.reset.TeardownLegal ∧ State.reset.RingsLegal ∧ State.reset.JobPlacesLegal ∧
    State.reset.JobsLegal ∧ State.reset.RingFramesOwned ∧ State.reset.ClosedRingsUnset ∧ State.reset.HoldingsLegal ∧
    State.reset.UnitsLegal ∧ State.reset.QueuesLegal ∧ State.reset.BusesLegal ∧ State.reset.ClaimsLegal ∧
    State.reset.TimerLegal

/-- Every step keeps the array's list in its one canonical form, inside the 262 144 bytes of the array. -/
def Obligations.StepKeepsMemoryCanonical : Prop :=
  ∀ s t : State, s.mem.wf = true → step s = .next t → t.mem.wf = true

/-- Every step keeps every frame record as R1 and R2 say, and in SPLIT mode every port's quota count at most 16
(R1, R2, R11). -/
def Obligations.StepKeepsFrameRecordsAndQuota : Prop :=
  ∀ s t : State, s.FramesLegal → step s = .next t → t.FramesLegal ∧ (s.QuotaKept → t.QuotaKept)

/-- Every step keeps: PRST# high at an UP port and low at a DOWN one with rejoin following it; a frame's mark on exactly
while a segment that reads or writes it is in flight; at most 31 ordinary events in a queue; the Event Unit's and Window
Unit's registers of a port empty from its closing on until it is UP; and the Tick Timer's count below 25 000 (R9, R96,
R128, R148, R169, R170, R180, R199). That a closed port is DOWN or UP only once every block has taken its announcement
is log 8. -/
def Obligations.StepKeepsPinsMarksQueuesUnits : Prop :=
  ∀ s t : State, step s = .next t →
    (s.PinsLegal → t.PinsLegal) ∧ (s.MarksLegal → t.MarksLegal) ∧ (s.QueuesLegal → t.QueuesLegal) ∧
      (s.UnitsLegal → t.UnitsLegal) ∧ (s.TimerLegal → t.TimerLegal)

/-- Every step keeps: at most one window access of a port in flight, each at an even offset, none delayed with PRST#
low, and one claim at the arbiter for each claimant while it needs the array and none otherwise (R85, R187, R188, R192,
R193; log 23). A claim counts from its presentation to the end of its grant (log 10). -/
def Obligations.StepKeepsBusesAndClaims : Prop :=
  ∀ s t : State, s.BusesLegal → s.ClaimsLegal → step s = .next t → t.BusesLegal ∧ t.ClaimsLegal

/-- Every step keeps the directory's tables legal: the scrub queue holds exactly the SCRUBBING frames, no mark is on
where a scrub runs, each inbox holds exactly the offers to its port, URGENT first and at most 8, and nothing names a
port whose closing the directory has taken (R2, R6, R8, R9, R10, R26, R31, R35, R47, R48). That pieces done is 0 in IDLE
and HELD is log 28, and that a teardown ends only once the directory has taken its announcement is log 8. -/
def Obligations.StepKeepsDirectory : Prop :=
  ∀ s t : State, s.DirectoryLegal → step s = .next t → t.DirectoryLegal

/-- Every step keeps the teardown and the Copy Engine legal (R99, R104, R113, R124, R125, R167, R173, R177, R178). That
a teardown ends only once every block has taken its announcement is log 8, and that kick noted goes off with a fetch
that is abandoned is log 29. -/
def Obligations.StepKeepsTeardownAndJobs : Prop :=
  ∀ s t : State, s.ClosingsLegal → step s = .next t → t.ClosingsLegal

/-- Every step keeps the ring frame of every configured ring owned by its port and OWNED, and leaves no frame with a
port whose disposal is done or that is DOWN (R28, R101, R180). That a disposal waits for the announcement of its closing
is log 8. -/
def Obligations.StepKeepsHoldings : Prop :=
  ∀ s t : State, s.DirectoryLegal → s.ClosingsLegal → step s = .next t →
    (s.RingFramesOwned → t.RingFramesOwned) ∧ (s.HoldingsLegal → t.HoldingsLegal)

end
end

