-- ==== Sys2Proof/Laws/Table.lean ====
section
/-! SUPPORT. What the entry of a table holds after one entry, or every entry, has been changed. -/

namespace Sys2Proof.Machine

variable {α β : Type} {n : Nat}

theorem sel_put (v : Vector α n) (i j : Fin n) (x : α) : sel (put v i x) j = if j = i then x else sel v j := by
  simp only [sel, put, Vector.getElem_set, Fin.ext_iff, eq_comm]

@[simp] theorem sel_put_same (v : Vector α n) (i : Fin n) (x : α) : sel (put v i x) i = x := by
  simp [sel_put]

@[simp] theorem sel_put_of_ne (v : Vector α n) (i j : Fin n) (x : α) (h : j ≠ i) : sel (put v i x) j = sel v j := by
  simp [sel_put, h]

@[simp] theorem sel_mapAll (f : α → β) (v : Vector α n) (i : Fin n) : sel (mapAll f v) i = f (sel v i) := by
  simp [sel, mapAll]

@[simp] theorem sel_replicate (x : α) (i : Fin n) : sel (Vector.replicate n x) i = x := by
  simp [sel]

/-- Tables with equal entries are equal. -/
theorem eq_of_sel_eq {v w : Vector α n} (h : ∀ i, sel v i = sel w i) : v = w :=
  Vector.ext fun i hi => h ⟨i, hi⟩

@[simp] theorem put_sel (v : Vector α n) (i : Fin n) : put v i (sel v i) = v :=
  eq_of_sel_eq fun j => by rw [sel_put]; split <;> simp_all

@[simp] theorem put_put (v : Vector α n) (i : Fin n) (x y : α) : put (put v i x) i y = put v i y :=
  eq_of_sel_eq fun j => by simp only [sel_put]; split <;> simp_all

end Sys2Proof.Machine
end

