-- ==== Sys2Proof/Laws/State.lean ====
section
/-! SUPPORT. What each update of the state leaves each of its parts: one lemma per field per update. -/

namespace Sys2Proof.Machine

/-! ### setFrame -/

@[simp] theorem State.setFrame_pending (s : State) (f : Frame) (r : FrameRecord) : (s.setFrame f r).pending = s.pending := rfl
@[simp] theorem State.setFrame_rstLow (s : State) (f : Frame) (r : FrameRecord) : (s.setFrame f r).rstLow = s.rstLow := rfl
@[simp] theorem State.setFrame_splitQuota (s : State) (f : Frame) (r : FrameRecord) : (s.setFrame f r).splitQuota = s.splitQuota := rfl
@[simp] theorem State.setFrame_mem (s : State) (f : Frame) (r : FrameRecord) : (s.setFrame f r).mem = s.mem := rfl
@[simp] theorem State.setFrame_frames (s : State) (f : Frame) (r : FrameRecord) : (s.setFrame f r).frames = put s.frames f r := rfl
@[simp] theorem State.setFrame_inboxes (s : State) (f : Frame) (r : FrameRecord) : (s.setFrame f r).inboxes = s.inboxes := rfl
@[simp] theorem State.setFrame_closingTaken (s : State) (f : Frame) (r : FrameRecord) : (s.setFrame f r).closingTaken = s.closingTaken := rfl
@[simp] theorem State.setFrame_dirMail (s : State) (f : Frame) (r : FrameRecord) : (s.setFrame f r).dirMail = s.dirMail := rfl
@[simp] theorem State.setFrame_scrub (s : State) (f : Frame) (r : FrameRecord) : (s.setFrame f r).scrub = s.scrub := rfl
@[simp] theorem State.setFrame_tickCount (s : State) (f : Frame) (r : FrameRecord) : (s.setFrame f r).tickCount = s.tickCount := rfl
@[simp] theorem State.setFrame_windows (s : State) (f : Frame) (r : FrameRecord) : (s.setFrame f r).windows = s.windows := rfl
@[simp] theorem State.setFrame_copy_rings (s : State) (f : Frame) (r : FrameRecord) : (s.setFrame f r).copy.rings = s.copy.rings := rfl
@[simp] theorem State.setFrame_copy_engine (s : State) (f : Frame) (r : FrameRecord) : (s.setFrame f r).copy.engine = s.copy.engine := rfl
@[simp] theorem State.setFrame_copy_pointer (s : State) (f : Frame) (r : FrameRecord) : (s.setFrame f r).copy.pointer = s.copy.pointer := rfl
@[simp] theorem State.setFrame_copy_owed (s : State) (f : Frame) (r : FrameRecord) : (s.setFrame f r).copy.owed = s.copy.owed := rfl
@[simp] theorem State.setFrame_queues (s : State) (f : Frame) (r : FrameRecord) : (s.setFrame f r).queues = s.queues := rfl
@[simp] theorem State.setFrame_handovers (s : State) (f : Frame) (r : FrameRecord) : (s.setFrame f r).handovers = s.handovers := rfl
@[simp] theorem State.setFrame_commands (s : State) (f : Frame) (r : FrameRecord) : (s.setFrame f r).commands = s.commands := rfl
@[simp] theorem State.setFrame_sessions (s : State) (f : Frame) (r : FrameRecord) : (s.setFrame f r).sessions = s.sessions := rfl
@[simp] theorem State.setFrame_arbiter (s : State) (f : Frame) (r : FrameRecord) : (s.setFrame f r).arbiter = s.arbiter := rfl
@[simp] theorem State.setFrame_draws (s : State) (f : Frame) (r : FrameRecord) : (s.setFrame f r).draws = s.draws := rfl
@[simp] theorem State.setFrame_copy (s : State) (f : Frame) (r : FrameRecord) : (s.setFrame f r).copy = s.copy := rfl
@[simp] theorem State.setFrame_inbox (s : State) (f : Frame) (r : FrameRecord) (q : Port) : (s.setFrame f r).inbox q = s.inbox q := rfl
@[simp] theorem State.setFrame_window (s : State) (f : Frame) (r : FrameRecord) (q : Port) : (s.setFrame f r).window q = s.window q := rfl
@[simp] theorem State.setFrame_ring (s : State) (f : Frame) (r : FrameRecord) (q : Port) : (s.setFrame f r).ring q = s.ring q := rfl
@[simp] theorem State.setFrame_queue (s : State) (f : Frame) (r : FrameRecord) (q : Port) : (s.setFrame f r).queue q = s.queue q := rfl
@[simp] theorem State.setFrame_command (s : State) (f : Frame) (r : FrameRecord) (q : Port) : (s.setFrame f r).command q = s.command q := rfl
@[simp] theorem State.setFrame_session (s : State) (f : Frame) (r : FrameRecord) (q : Port) : (s.setFrame f r).session q = s.session q := rfl
@[simp] theorem State.setFrame_isUp (s : State) (f : Frame) (r : FrameRecord) (q : Port) : (s.setFrame f r).isUp q = s.isUp q := rfl
@[simp] theorem State.setFrame_isClosing (s : State) (f : Frame) (r : FrameRecord) (q : Port) : (s.setFrame f r).isClosing q = s.isClosing q := rfl
@[simp] theorem State.setFrame_dirUp (s : State) (f : Frame) (r : FrameRecord) (q : Port) : (s.setFrame f r).dirUp q = s.dirUp q := rfl
@[simp] theorem State.setFrame_holds (s : State) (f : Frame) (r : FrameRecord) (c : Claimant) : (s.setFrame f r).holds c = s.holds c := rfl

/-! ### setFrames -/

@[simp] theorem State.setFrames_pending (s : State) (v : Vector FrameRecord 64) : (s.setFrames v).pending = s.pending := rfl
@[simp] theorem State.setFrames_rstLow (s : State) (v : Vector FrameRecord 64) : (s.setFrames v).rstLow = s.rstLow := rfl
@[simp] theorem State.setFrames_splitQuota (s : State) (v : Vector FrameRecord 64) : (s.setFrames v).splitQuota = s.splitQuota := rfl
@[simp] theorem State.setFrames_mem (s : State) (v : Vector FrameRecord 64) : (s.setFrames v).mem = s.mem := rfl
@[simp] theorem State.setFrames_frames (s : State) (v : Vector FrameRecord 64) : (s.setFrames v).frames = v := rfl
@[simp] theorem State.setFrames_inboxes (s : State) (v : Vector FrameRecord 64) : (s.setFrames v).inboxes = s.inboxes := rfl
@[simp] theorem State.setFrames_closingTaken (s : State) (v : Vector FrameRecord 64) : (s.setFrames v).closingTaken = s.closingTaken := rfl
@[simp] theorem State.setFrames_dirMail (s : State) (v : Vector FrameRecord 64) : (s.setFrames v).dirMail = s.dirMail := rfl
@[simp] theorem State.setFrames_scrub (s : State) (v : Vector FrameRecord 64) : (s.setFrames v).scrub = s.scrub := rfl
@[simp] theorem State.setFrames_tickCount (s : State) (v : Vector FrameRecord 64) : (s.setFrames v).tickCount = s.tickCount := rfl
@[simp] theorem State.setFrames_windows (s : State) (v : Vector FrameRecord 64) : (s.setFrames v).windows = s.windows := rfl
@[simp] theorem State.setFrames_copy_rings (s : State) (v : Vector FrameRecord 64) : (s.setFrames v).copy.rings = s.copy.rings := rfl
@[simp] theorem State.setFrames_copy_engine (s : State) (v : Vector FrameRecord 64) : (s.setFrames v).copy.engine = s.copy.engine := rfl
@[simp] theorem State.setFrames_copy_pointer (s : State) (v : Vector FrameRecord 64) : (s.setFrames v).copy.pointer = s.copy.pointer := rfl
@[simp] theorem State.setFrames_copy_owed (s : State) (v : Vector FrameRecord 64) : (s.setFrames v).copy.owed = s.copy.owed := rfl
@[simp] theorem State.setFrames_queues (s : State) (v : Vector FrameRecord 64) : (s.setFrames v).queues = s.queues := rfl
@[simp] theorem State.setFrames_handovers (s : State) (v : Vector FrameRecord 64) : (s.setFrames v).handovers = s.handovers := rfl
@[simp] theorem State.setFrames_commands (s : State) (v : Vector FrameRecord 64) : (s.setFrames v).commands = s.commands := rfl
@[simp] theorem State.setFrames_sessions (s : State) (v : Vector FrameRecord 64) : (s.setFrames v).sessions = s.sessions := rfl
@[simp] theorem State.setFrames_arbiter (s : State) (v : Vector FrameRecord 64) : (s.setFrames v).arbiter = s.arbiter := rfl
@[simp] theorem State.setFrames_draws (s : State) (v : Vector FrameRecord 64) : (s.setFrames v).draws = s.draws := rfl
@[simp] theorem State.setFrames_copy (s : State) (v : Vector FrameRecord 64) : (s.setFrames v).copy = s.copy := rfl
@[simp] theorem State.setFrames_inbox (s : State) (v : Vector FrameRecord 64) (q : Port) : (s.setFrames v).inbox q = s.inbox q := rfl
@[simp] theorem State.setFrames_window (s : State) (v : Vector FrameRecord 64) (q : Port) : (s.setFrames v).window q = s.window q := rfl
@[simp] theorem State.setFrames_ring (s : State) (v : Vector FrameRecord 64) (q : Port) : (s.setFrames v).ring q = s.ring q := rfl
@[simp] theorem State.setFrames_queue (s : State) (v : Vector FrameRecord 64) (q : Port) : (s.setFrames v).queue q = s.queue q := rfl
@[simp] theorem State.setFrames_command (s : State) (v : Vector FrameRecord 64) (q : Port) : (s.setFrames v).command q = s.command q := rfl
@[simp] theorem State.setFrames_session (s : State) (v : Vector FrameRecord 64) (q : Port) : (s.setFrames v).session q = s.session q := rfl
@[simp] theorem State.setFrames_isUp (s : State) (v : Vector FrameRecord 64) (q : Port) : (s.setFrames v).isUp q = s.isUp q := rfl
@[simp] theorem State.setFrames_isClosing (s : State) (v : Vector FrameRecord 64) (q : Port) : (s.setFrames v).isClosing q = s.isClosing q := rfl
@[simp] theorem State.setFrames_dirUp (s : State) (v : Vector FrameRecord 64) (q : Port) : (s.setFrames v).dirUp q = s.dirUp q := rfl
@[simp] theorem State.setFrames_holds (s : State) (v : Vector FrameRecord 64) (c : Claimant) : (s.setFrames v).holds c = s.holds c := rfl

/-! ### setInbox -/

@[simp] theorem State.setInbox_pending (s : State) (p : Port) (l : List Frame) : (s.setInbox p l).pending = s.pending := rfl
@[simp] theorem State.setInbox_rstLow (s : State) (p : Port) (l : List Frame) : (s.setInbox p l).rstLow = s.rstLow := rfl
@[simp] theorem State.setInbox_splitQuota (s : State) (p : Port) (l : List Frame) : (s.setInbox p l).splitQuota = s.splitQuota := rfl
@[simp] theorem State.setInbox_mem (s : State) (p : Port) (l : List Frame) : (s.setInbox p l).mem = s.mem := rfl
@[simp] theorem State.setInbox_frames (s : State) (p : Port) (l : List Frame) : (s.setInbox p l).frames = s.frames := rfl
@[simp] theorem State.setInbox_inboxes (s : State) (p : Port) (l : List Frame) : (s.setInbox p l).inboxes = put s.inboxes p l := rfl
@[simp] theorem State.setInbox_closingTaken (s : State) (p : Port) (l : List Frame) : (s.setInbox p l).closingTaken = s.closingTaken := rfl
@[simp] theorem State.setInbox_dirMail (s : State) (p : Port) (l : List Frame) : (s.setInbox p l).dirMail = s.dirMail := rfl
@[simp] theorem State.setInbox_scrub (s : State) (p : Port) (l : List Frame) : (s.setInbox p l).scrub = s.scrub := rfl
@[simp] theorem State.setInbox_tickCount (s : State) (p : Port) (l : List Frame) : (s.setInbox p l).tickCount = s.tickCount := rfl
@[simp] theorem State.setInbox_windows (s : State) (p : Port) (l : List Frame) : (s.setInbox p l).windows = s.windows := rfl
@[simp] theorem State.setInbox_copy_rings (s : State) (p : Port) (l : List Frame) : (s.setInbox p l).copy.rings = s.copy.rings := rfl
@[simp] theorem State.setInbox_copy_engine (s : State) (p : Port) (l : List Frame) : (s.setInbox p l).copy.engine = s.copy.engine := rfl
@[simp] theorem State.setInbox_copy_pointer (s : State) (p : Port) (l : List Frame) : (s.setInbox p l).copy.pointer = s.copy.pointer := rfl
@[simp] theorem State.setInbox_copy_owed (s : State) (p : Port) (l : List Frame) : (s.setInbox p l).copy.owed = s.copy.owed := rfl
@[simp] theorem State.setInbox_queues (s : State) (p : Port) (l : List Frame) : (s.setInbox p l).queues = s.queues := rfl
@[simp] theorem State.setInbox_handovers (s : State) (p : Port) (l : List Frame) : (s.setInbox p l).handovers = s.handovers := rfl
@[simp] theorem State.setInbox_commands (s : State) (p : Port) (l : List Frame) : (s.setInbox p l).commands = s.commands := rfl
@[simp] theorem State.setInbox_sessions (s : State) (p : Port) (l : List Frame) : (s.setInbox p l).sessions = s.sessions := rfl
@[simp] theorem State.setInbox_arbiter (s : State) (p : Port) (l : List Frame) : (s.setInbox p l).arbiter = s.arbiter := rfl
@[simp] theorem State.setInbox_draws (s : State) (p : Port) (l : List Frame) : (s.setInbox p l).draws = s.draws := rfl
@[simp] theorem State.setInbox_copy (s : State) (p : Port) (l : List Frame) : (s.setInbox p l).copy = s.copy := rfl
@[simp] theorem State.setInbox_frame (s : State) (p : Port) (l : List Frame) (g : Frame) : (s.setInbox p l).frame g = s.frame g := rfl
@[simp] theorem State.setInbox_window (s : State) (p : Port) (l : List Frame) (q : Port) : (s.setInbox p l).window q = s.window q := rfl
@[simp] theorem State.setInbox_ring (s : State) (p : Port) (l : List Frame) (q : Port) : (s.setInbox p l).ring q = s.ring q := rfl
@[simp] theorem State.setInbox_queue (s : State) (p : Port) (l : List Frame) (q : Port) : (s.setInbox p l).queue q = s.queue q := rfl
@[simp] theorem State.setInbox_command (s : State) (p : Port) (l : List Frame) (q : Port) : (s.setInbox p l).command q = s.command q := rfl
@[simp] theorem State.setInbox_session (s : State) (p : Port) (l : List Frame) (q : Port) : (s.setInbox p l).session q = s.session q := rfl
@[simp] theorem State.setInbox_isUp (s : State) (p : Port) (l : List Frame) (q : Port) : (s.setInbox p l).isUp q = s.isUp q := rfl
@[simp] theorem State.setInbox_isClosing (s : State) (p : Port) (l : List Frame) (q : Port) : (s.setInbox p l).isClosing q = s.isClosing q := rfl
@[simp] theorem State.setInbox_dirUp (s : State) (p : Port) (l : List Frame) (q : Port) : (s.setInbox p l).dirUp q = s.dirUp q := rfl
@[simp] theorem State.setInbox_quotaCount (s : State) (p : Port) (l : List Frame) (q : Port) : (s.setInbox p l).quotaCount q = s.quotaCount q := rfl
@[simp] theorem State.setInbox_quotaFull (s : State) (p : Port) (l : List Frame) (q : Port) : (s.setInbox p l).quotaFull q = s.quotaFull q := rfl
@[simp] theorem State.setInbox_holds (s : State) (p : Port) (l : List Frame) (c : Claimant) : (s.setInbox p l).holds c = s.holds c := rfl

/-! ### setClosingTaken -/

@[simp] theorem State.setClosingTaken_pending (s : State) (p : Port) (b : Bool) : (s.setClosingTaken p b).pending = s.pending := rfl
@[simp] theorem State.setClosingTaken_rstLow (s : State) (p : Port) (b : Bool) : (s.setClosingTaken p b).rstLow = s.rstLow := rfl
@[simp] theorem State.setClosingTaken_splitQuota (s : State) (p : Port) (b : Bool) : (s.setClosingTaken p b).splitQuota = s.splitQuota := rfl
@[simp] theorem State.setClosingTaken_mem (s : State) (p : Port) (b : Bool) : (s.setClosingTaken p b).mem = s.mem := rfl
@[simp] theorem State.setClosingTaken_frames (s : State) (p : Port) (b : Bool) : (s.setClosingTaken p b).frames = s.frames := rfl
@[simp] theorem State.setClosingTaken_inboxes (s : State) (p : Port) (b : Bool) : (s.setClosingTaken p b).inboxes = s.inboxes := rfl
@[simp] theorem State.setClosingTaken_closingTaken (s : State) (p : Port) (b : Bool) : (s.setClosingTaken p b).closingTaken = put s.closingTaken p b := rfl
@[simp] theorem State.setClosingTaken_dirMail (s : State) (p : Port) (b : Bool) : (s.setClosingTaken p b).dirMail = s.dirMail := rfl
@[simp] theorem State.setClosingTaken_scrub (s : State) (p : Port) (b : Bool) : (s.setClosingTaken p b).scrub = s.scrub := rfl
@[simp] theorem State.setClosingTaken_tickCount (s : State) (p : Port) (b : Bool) : (s.setClosingTaken p b).tickCount = s.tickCount := rfl
@[simp] theorem State.setClosingTaken_windows (s : State) (p : Port) (b : Bool) : (s.setClosingTaken p b).windows = s.windows := rfl
@[simp] theorem State.setClosingTaken_copy_rings (s : State) (p : Port) (b : Bool) : (s.setClosingTaken p b).copy.rings = s.copy.rings := rfl
@[simp] theorem State.setClosingTaken_copy_engine (s : State) (p : Port) (b : Bool) : (s.setClosingTaken p b).copy.engine = s.copy.engine := rfl
@[simp] theorem State.setClosingTaken_copy_pointer (s : State) (p : Port) (b : Bool) : (s.setClosingTaken p b).copy.pointer = s.copy.pointer := rfl
@[simp] theorem State.setClosingTaken_copy_owed (s : State) (p : Port) (b : Bool) : (s.setClosingTaken p b).copy.owed = s.copy.owed := rfl
@[simp] theorem State.setClosingTaken_queues (s : State) (p : Port) (b : Bool) : (s.setClosingTaken p b).queues = s.queues := rfl
@[simp] theorem State.setClosingTaken_handovers (s : State) (p : Port) (b : Bool) : (s.setClosingTaken p b).handovers = s.handovers := rfl
@[simp] theorem State.setClosingTaken_commands (s : State) (p : Port) (b : Bool) : (s.setClosingTaken p b).commands = s.commands := rfl
@[simp] theorem State.setClosingTaken_sessions (s : State) (p : Port) (b : Bool) : (s.setClosingTaken p b).sessions = s.sessions := rfl
@[simp] theorem State.setClosingTaken_arbiter (s : State) (p : Port) (b : Bool) : (s.setClosingTaken p b).arbiter = s.arbiter := rfl
@[simp] theorem State.setClosingTaken_draws (s : State) (p : Port) (b : Bool) : (s.setClosingTaken p b).draws = s.draws := rfl
@[simp] theorem State.setClosingTaken_copy (s : State) (p : Port) (b : Bool) : (s.setClosingTaken p b).copy = s.copy := rfl
@[simp] theorem State.setClosingTaken_frame (s : State) (p : Port) (b : Bool) (g : Frame) : (s.setClosingTaken p b).frame g = s.frame g := rfl
@[simp] theorem State.setClosingTaken_inbox (s : State) (p : Port) (b : Bool) (q : Port) : (s.setClosingTaken p b).inbox q = s.inbox q := rfl
@[simp] theorem State.setClosingTaken_window (s : State) (p : Port) (b : Bool) (q : Port) : (s.setClosingTaken p b).window q = s.window q := rfl
@[simp] theorem State.setClosingTaken_ring (s : State) (p : Port) (b : Bool) (q : Port) : (s.setClosingTaken p b).ring q = s.ring q := rfl
@[simp] theorem State.setClosingTaken_queue (s : State) (p : Port) (b : Bool) (q : Port) : (s.setClosingTaken p b).queue q = s.queue q := rfl
@[simp] theorem State.setClosingTaken_command (s : State) (p : Port) (b : Bool) (q : Port) : (s.setClosingTaken p b).command q = s.command q := rfl
@[simp] theorem State.setClosingTaken_session (s : State) (p : Port) (b : Bool) (q : Port) : (s.setClosingTaken p b).session q = s.session q := rfl
@[simp] theorem State.setClosingTaken_isUp (s : State) (p : Port) (b : Bool) (q : Port) : (s.setClosingTaken p b).isUp q = s.isUp q := rfl
@[simp] theorem State.setClosingTaken_isClosing (s : State) (p : Port) (b : Bool) (q : Port) : (s.setClosingTaken p b).isClosing q = s.isClosing q := rfl
@[simp] theorem State.setClosingTaken_quotaCount (s : State) (p : Port) (b : Bool) (q : Port) : (s.setClosingTaken p b).quotaCount q = s.quotaCount q := rfl
@[simp] theorem State.setClosingTaken_quotaFull (s : State) (p : Port) (b : Bool) (q : Port) : (s.setClosingTaken p b).quotaFull q = s.quotaFull q := rfl
@[simp] theorem State.setClosingTaken_holds (s : State) (p : Port) (b : Bool) (c : Claimant) : (s.setClosingTaken p b).holds c = s.holds c := rfl

/-! ### setDirMail -/

@[simp] theorem State.setDirMail_pending (s : State) (l : List DirMail) : (s.setDirMail l).pending = s.pending := rfl
@[simp] theorem State.setDirMail_rstLow (s : State) (l : List DirMail) : (s.setDirMail l).rstLow = s.rstLow := rfl
@[simp] theorem State.setDirMail_splitQuota (s : State) (l : List DirMail) : (s.setDirMail l).splitQuota = s.splitQuota := rfl
@[simp] theorem State.setDirMail_mem (s : State) (l : List DirMail) : (s.setDirMail l).mem = s.mem := rfl
@[simp] theorem State.setDirMail_frames (s : State) (l : List DirMail) : (s.setDirMail l).frames = s.frames := rfl
@[simp] theorem State.setDirMail_inboxes (s : State) (l : List DirMail) : (s.setDirMail l).inboxes = s.inboxes := rfl
@[simp] theorem State.setDirMail_closingTaken (s : State) (l : List DirMail) : (s.setDirMail l).closingTaken = s.closingTaken := rfl
@[simp] theorem State.setDirMail_dirMail (s : State) (l : List DirMail) : (s.setDirMail l).dirMail = l := rfl
@[simp] theorem State.setDirMail_scrub (s : State) (l : List DirMail) : (s.setDirMail l).scrub = s.scrub := rfl
@[simp] theorem State.setDirMail_tickCount (s : State) (l : List DirMail) : (s.setDirMail l).tickCount = s.tickCount := rfl
@[simp] theorem State.setDirMail_windows (s : State) (l : List DirMail) : (s.setDirMail l).windows = s.windows := rfl
@[simp] theorem State.setDirMail_copy_rings (s : State) (l : List DirMail) : (s.setDirMail l).copy.rings = s.copy.rings := rfl
@[simp] theorem State.setDirMail_copy_engine (s : State) (l : List DirMail) : (s.setDirMail l).copy.engine = s.copy.engine := rfl
@[simp] theorem State.setDirMail_copy_pointer (s : State) (l : List DirMail) : (s.setDirMail l).copy.pointer = s.copy.pointer := rfl
@[simp] theorem State.setDirMail_copy_owed (s : State) (l : List DirMail) : (s.setDirMail l).copy.owed = s.copy.owed := rfl
@[simp] theorem State.setDirMail_queues (s : State) (l : List DirMail) : (s.setDirMail l).queues = s.queues := rfl
@[simp] theorem State.setDirMail_handovers (s : State) (l : List DirMail) : (s.setDirMail l).handovers = s.handovers := rfl
@[simp] theorem State.setDirMail_commands (s : State) (l : List DirMail) : (s.setDirMail l).commands = s.commands := rfl
@[simp] theorem State.setDirMail_sessions (s : State) (l : List DirMail) : (s.setDirMail l).sessions = s.sessions := rfl
@[simp] theorem State.setDirMail_arbiter (s : State) (l : List DirMail) : (s.setDirMail l).arbiter = s.arbiter := rfl
@[simp] theorem State.setDirMail_draws (s : State) (l : List DirMail) : (s.setDirMail l).draws = s.draws := rfl
@[simp] theorem State.setDirMail_copy (s : State) (l : List DirMail) : (s.setDirMail l).copy = s.copy := rfl
@[simp] theorem State.setDirMail_frame (s : State) (l : List DirMail) (g : Frame) : (s.setDirMail l).frame g = s.frame g := rfl
@[simp] theorem State.setDirMail_inbox (s : State) (l : List DirMail) (q : Port) : (s.setDirMail l).inbox q = s.inbox q := rfl
@[simp] theorem State.setDirMail_window (s : State) (l : List DirMail) (q : Port) : (s.setDirMail l).window q = s.window q := rfl
@[simp] theorem State.setDirMail_ring (s : State) (l : List DirMail) (q : Port) : (s.setDirMail l).ring q = s.ring q := rfl
@[simp] theorem State.setDirMail_queue (s : State) (l : List DirMail) (q : Port) : (s.setDirMail l).queue q = s.queue q := rfl
@[simp] theorem State.setDirMail_command (s : State) (l : List DirMail) (q : Port) : (s.setDirMail l).command q = s.command q := rfl
@[simp] theorem State.setDirMail_session (s : State) (l : List DirMail) (q : Port) : (s.setDirMail l).session q = s.session q := rfl
@[simp] theorem State.setDirMail_isUp (s : State) (l : List DirMail) (q : Port) : (s.setDirMail l).isUp q = s.isUp q := rfl
@[simp] theorem State.setDirMail_isClosing (s : State) (l : List DirMail) (q : Port) : (s.setDirMail l).isClosing q = s.isClosing q := rfl
@[simp] theorem State.setDirMail_dirUp (s : State) (l : List DirMail) (q : Port) : (s.setDirMail l).dirUp q = s.dirUp q := rfl
@[simp] theorem State.setDirMail_quotaCount (s : State) (l : List DirMail) (q : Port) : (s.setDirMail l).quotaCount q = s.quotaCount q := rfl
@[simp] theorem State.setDirMail_quotaFull (s : State) (l : List DirMail) (q : Port) : (s.setDirMail l).quotaFull q = s.quotaFull q := rfl
@[simp] theorem State.setDirMail_holds (s : State) (l : List DirMail) (c : Claimant) : (s.setDirMail l).holds c = s.holds c := rfl

/-! ### setScrub -/

@[simp] theorem State.setScrub_pending (s : State) (e : ScrubEngine) : (s.setScrub e).pending = s.pending := rfl
@[simp] theorem State.setScrub_rstLow (s : State) (e : ScrubEngine) : (s.setScrub e).rstLow = s.rstLow := rfl
@[simp] theorem State.setScrub_splitQuota (s : State) (e : ScrubEngine) : (s.setScrub e).splitQuota = s.splitQuota := rfl
@[simp] theorem State.setScrub_mem (s : State) (e : ScrubEngine) : (s.setScrub e).mem = s.mem := rfl
@[simp] theorem State.setScrub_frames (s : State) (e : ScrubEngine) : (s.setScrub e).frames = s.frames := rfl
@[simp] theorem State.setScrub_inboxes (s : State) (e : ScrubEngine) : (s.setScrub e).inboxes = s.inboxes := rfl
@[simp] theorem State.setScrub_closingTaken (s : State) (e : ScrubEngine) : (s.setScrub e).closingTaken = s.closingTaken := rfl
@[simp] theorem State.setScrub_dirMail (s : State) (e : ScrubEngine) : (s.setScrub e).dirMail = s.dirMail := rfl
@[simp] theorem State.setScrub_scrub (s : State) (e : ScrubEngine) : (s.setScrub e).scrub = e := rfl
@[simp] theorem State.setScrub_tickCount (s : State) (e : ScrubEngine) : (s.setScrub e).tickCount = s.tickCount := rfl
@[simp] theorem State.setScrub_windows (s : State) (e : ScrubEngine) : (s.setScrub e).windows = s.windows := rfl
@[simp] theorem State.setScrub_copy_rings (s : State) (e : ScrubEngine) : (s.setScrub e).copy.rings = s.copy.rings := rfl
@[simp] theorem State.setScrub_copy_engine (s : State) (e : ScrubEngine) : (s.setScrub e).copy.engine = s.copy.engine := rfl
@[simp] theorem State.setScrub_copy_pointer (s : State) (e : ScrubEngine) : (s.setScrub e).copy.pointer = s.copy.pointer := rfl
@[simp] theorem State.setScrub_copy_owed (s : State) (e : ScrubEngine) : (s.setScrub e).copy.owed = s.copy.owed := rfl
@[simp] theorem State.setScrub_queues (s : State) (e : ScrubEngine) : (s.setScrub e).queues = s.queues := rfl
@[simp] theorem State.setScrub_handovers (s : State) (e : ScrubEngine) : (s.setScrub e).handovers = s.handovers := rfl
@[simp] theorem State.setScrub_commands (s : State) (e : ScrubEngine) : (s.setScrub e).commands = s.commands := rfl
@[simp] theorem State.setScrub_sessions (s : State) (e : ScrubEngine) : (s.setScrub e).sessions = s.sessions := rfl
@[simp] theorem State.setScrub_arbiter (s : State) (e : ScrubEngine) : (s.setScrub e).arbiter = s.arbiter := rfl
@[simp] theorem State.setScrub_draws (s : State) (e : ScrubEngine) : (s.setScrub e).draws = s.draws := rfl
@[simp] theorem State.setScrub_copy (s : State) (e : ScrubEngine) : (s.setScrub e).copy = s.copy := rfl
@[simp] theorem State.setScrub_frame (s : State) (e : ScrubEngine) (g : Frame) : (s.setScrub e).frame g = s.frame g := rfl
@[simp] theorem State.setScrub_inbox (s : State) (e : ScrubEngine) (q : Port) : (s.setScrub e).inbox q = s.inbox q := rfl
@[simp] theorem State.setScrub_window (s : State) (e : ScrubEngine) (q : Port) : (s.setScrub e).window q = s.window q := rfl
@[simp] theorem State.setScrub_ring (s : State) (e : ScrubEngine) (q : Port) : (s.setScrub e).ring q = s.ring q := rfl
@[simp] theorem State.setScrub_queue (s : State) (e : ScrubEngine) (q : Port) : (s.setScrub e).queue q = s.queue q := rfl
@[simp] theorem State.setScrub_command (s : State) (e : ScrubEngine) (q : Port) : (s.setScrub e).command q = s.command q := rfl
@[simp] theorem State.setScrub_session (s : State) (e : ScrubEngine) (q : Port) : (s.setScrub e).session q = s.session q := rfl
@[simp] theorem State.setScrub_isUp (s : State) (e : ScrubEngine) (q : Port) : (s.setScrub e).isUp q = s.isUp q := rfl
@[simp] theorem State.setScrub_isClosing (s : State) (e : ScrubEngine) (q : Port) : (s.setScrub e).isClosing q = s.isClosing q := rfl
@[simp] theorem State.setScrub_dirUp (s : State) (e : ScrubEngine) (q : Port) : (s.setScrub e).dirUp q = s.dirUp q := rfl
@[simp] theorem State.setScrub_quotaCount (s : State) (e : ScrubEngine) (q : Port) : (s.setScrub e).quotaCount q = s.quotaCount q := rfl
@[simp] theorem State.setScrub_quotaFull (s : State) (e : ScrubEngine) (q : Port) : (s.setScrub e).quotaFull q = s.quotaFull q := rfl
@[simp] theorem State.setScrub_holds (s : State) (e : ScrubEngine) (c : Claimant) : (s.setScrub e).holds c = s.holds c := rfl

/-! ### setTickCount -/

@[simp] theorem State.setTickCount_pending (s : State) (n : Nat) : (s.setTickCount n).pending = s.pending := rfl
@[simp] theorem State.setTickCount_rstLow (s : State) (n : Nat) : (s.setTickCount n).rstLow = s.rstLow := rfl
@[simp] theorem State.setTickCount_splitQuota (s : State) (n : Nat) : (s.setTickCount n).splitQuota = s.splitQuota := rfl
@[simp] theorem State.setTickCount_mem (s : State) (n : Nat) : (s.setTickCount n).mem = s.mem := rfl
@[simp] theorem State.setTickCount_frames (s : State) (n : Nat) : (s.setTickCount n).frames = s.frames := rfl
@[simp] theorem State.setTickCount_inboxes (s : State) (n : Nat) : (s.setTickCount n).inboxes = s.inboxes := rfl
@[simp] theorem State.setTickCount_closingTaken (s : State) (n : Nat) : (s.setTickCount n).closingTaken = s.closingTaken := rfl
@[simp] theorem State.setTickCount_dirMail (s : State) (n : Nat) : (s.setTickCount n).dirMail = s.dirMail := rfl
@[simp] theorem State.setTickCount_scrub (s : State) (n : Nat) : (s.setTickCount n).scrub = s.scrub := rfl
@[simp] theorem State.setTickCount_tickCount (s : State) (n : Nat) : (s.setTickCount n).tickCount = n := rfl
@[simp] theorem State.setTickCount_windows (s : State) (n : Nat) : (s.setTickCount n).windows = s.windows := rfl
@[simp] theorem State.setTickCount_copy_rings (s : State) (n : Nat) : (s.setTickCount n).copy.rings = s.copy.rings := rfl
@[simp] theorem State.setTickCount_copy_engine (s : State) (n : Nat) : (s.setTickCount n).copy.engine = s.copy.engine := rfl
@[simp] theorem State.setTickCount_copy_pointer (s : State) (n : Nat) : (s.setTickCount n).copy.pointer = s.copy.pointer := rfl
@[simp] theorem State.setTickCount_copy_owed (s : State) (n : Nat) : (s.setTickCount n).copy.owed = s.copy.owed := rfl
@[simp] theorem State.setTickCount_queues (s : State) (n : Nat) : (s.setTickCount n).queues = s.queues := rfl
@[simp] theorem State.setTickCount_handovers (s : State) (n : Nat) : (s.setTickCount n).handovers = s.handovers := rfl
@[simp] theorem State.setTickCount_commands (s : State) (n : Nat) : (s.setTickCount n).commands = s.commands := rfl
@[simp] theorem State.setTickCount_sessions (s : State) (n : Nat) : (s.setTickCount n).sessions = s.sessions := rfl
@[simp] theorem State.setTickCount_arbiter (s : State) (n : Nat) : (s.setTickCount n).arbiter = s.arbiter := rfl
@[simp] theorem State.setTickCount_draws (s : State) (n : Nat) : (s.setTickCount n).draws = s.draws := rfl
@[simp] theorem State.setTickCount_copy (s : State) (n : Nat) : (s.setTickCount n).copy = s.copy := rfl
@[simp] theorem State.setTickCount_frame (s : State) (n : Nat) (g : Frame) : (s.setTickCount n).frame g = s.frame g := rfl
@[simp] theorem State.setTickCount_inbox (s : State) (n : Nat) (q : Port) : (s.setTickCount n).inbox q = s.inbox q := rfl
@[simp] theorem State.setTickCount_window (s : State) (n : Nat) (q : Port) : (s.setTickCount n).window q = s.window q := rfl
@[simp] theorem State.setTickCount_ring (s : State) (n : Nat) (q : Port) : (s.setTickCount n).ring q = s.ring q := rfl
@[simp] theorem State.setTickCount_queue (s : State) (n : Nat) (q : Port) : (s.setTickCount n).queue q = s.queue q := rfl
@[simp] theorem State.setTickCount_command (s : State) (n : Nat) (q : Port) : (s.setTickCount n).command q = s.command q := rfl
@[simp] theorem State.setTickCount_session (s : State) (n : Nat) (q : Port) : (s.setTickCount n).session q = s.session q := rfl
@[simp] theorem State.setTickCount_isUp (s : State) (n : Nat) (q : Port) : (s.setTickCount n).isUp q = s.isUp q := rfl
@[simp] theorem State.setTickCount_isClosing (s : State) (n : Nat) (q : Port) : (s.setTickCount n).isClosing q = s.isClosing q := rfl
@[simp] theorem State.setTickCount_dirUp (s : State) (n : Nat) (q : Port) : (s.setTickCount n).dirUp q = s.dirUp q := rfl
@[simp] theorem State.setTickCount_quotaCount (s : State) (n : Nat) (q : Port) : (s.setTickCount n).quotaCount q = s.quotaCount q := rfl
@[simp] theorem State.setTickCount_quotaFull (s : State) (n : Nat) (q : Port) : (s.setTickCount n).quotaFull q = s.quotaFull q := rfl
@[simp] theorem State.setTickCount_holds (s : State) (n : Nat) (c : Claimant) : (s.setTickCount n).holds c = s.holds c := rfl

/-! ### setMem -/

@[simp] theorem State.setMem_pending (s : State) (m : Memory) : (s.setMem m).pending = s.pending := rfl
@[simp] theorem State.setMem_rstLow (s : State) (m : Memory) : (s.setMem m).rstLow = s.rstLow := rfl
@[simp] theorem State.setMem_splitQuota (s : State) (m : Memory) : (s.setMem m).splitQuota = s.splitQuota := rfl
@[simp] theorem State.setMem_mem (s : State) (m : Memory) : (s.setMem m).mem = m := rfl
@[simp] theorem State.setMem_frames (s : State) (m : Memory) : (s.setMem m).frames = s.frames := rfl
@[simp] theorem State.setMem_inboxes (s : State) (m : Memory) : (s.setMem m).inboxes = s.inboxes := rfl
@[simp] theorem State.setMem_closingTaken (s : State) (m : Memory) : (s.setMem m).closingTaken = s.closingTaken := rfl
@[simp] theorem State.setMem_dirMail (s : State) (m : Memory) : (s.setMem m).dirMail = s.dirMail := rfl
@[simp] theorem State.setMem_scrub (s : State) (m : Memory) : (s.setMem m).scrub = s.scrub := rfl
@[simp] theorem State.setMem_tickCount (s : State) (m : Memory) : (s.setMem m).tickCount = s.tickCount := rfl
@[simp] theorem State.setMem_windows (s : State) (m : Memory) : (s.setMem m).windows = s.windows := rfl
@[simp] theorem State.setMem_copy_rings (s : State) (m : Memory) : (s.setMem m).copy.rings = s.copy.rings := rfl
@[simp] theorem State.setMem_copy_engine (s : State) (m : Memory) : (s.setMem m).copy.engine = s.copy.engine := rfl
@[simp] theorem State.setMem_copy_pointer (s : State) (m : Memory) : (s.setMem m).copy.pointer = s.copy.pointer := rfl
@[simp] theorem State.setMem_copy_owed (s : State) (m : Memory) : (s.setMem m).copy.owed = s.copy.owed := rfl
@[simp] theorem State.setMem_queues (s : State) (m : Memory) : (s.setMem m).queues = s.queues := rfl
@[simp] theorem State.setMem_handovers (s : State) (m : Memory) : (s.setMem m).handovers = s.handovers := rfl
@[simp] theorem State.setMem_commands (s : State) (m : Memory) : (s.setMem m).commands = s.commands := rfl
@[simp] theorem State.setMem_sessions (s : State) (m : Memory) : (s.setMem m).sessions = s.sessions := rfl
@[simp] theorem State.setMem_arbiter (s : State) (m : Memory) : (s.setMem m).arbiter = s.arbiter := rfl
@[simp] theorem State.setMem_draws (s : State) (m : Memory) : (s.setMem m).draws = s.draws := rfl
@[simp] theorem State.setMem_copy (s : State) (m : Memory) : (s.setMem m).copy = s.copy := rfl
@[simp] theorem State.setMem_frame (s : State) (m : Memory) (g : Frame) : (s.setMem m).frame g = s.frame g := rfl
@[simp] theorem State.setMem_inbox (s : State) (m : Memory) (q : Port) : (s.setMem m).inbox q = s.inbox q := rfl
@[simp] theorem State.setMem_window (s : State) (m : Memory) (q : Port) : (s.setMem m).window q = s.window q := rfl
@[simp] theorem State.setMem_ring (s : State) (m : Memory) (q : Port) : (s.setMem m).ring q = s.ring q := rfl
@[simp] theorem State.setMem_queue (s : State) (m : Memory) (q : Port) : (s.setMem m).queue q = s.queue q := rfl
@[simp] theorem State.setMem_command (s : State) (m : Memory) (q : Port) : (s.setMem m).command q = s.command q := rfl
@[simp] theorem State.setMem_session (s : State) (m : Memory) (q : Port) : (s.setMem m).session q = s.session q := rfl
@[simp] theorem State.setMem_isUp (s : State) (m : Memory) (q : Port) : (s.setMem m).isUp q = s.isUp q := rfl
@[simp] theorem State.setMem_isClosing (s : State) (m : Memory) (q : Port) : (s.setMem m).isClosing q = s.isClosing q := rfl
@[simp] theorem State.setMem_dirUp (s : State) (m : Memory) (q : Port) : (s.setMem m).dirUp q = s.dirUp q := rfl
@[simp] theorem State.setMem_quotaCount (s : State) (m : Memory) (q : Port) : (s.setMem m).quotaCount q = s.quotaCount q := rfl
@[simp] theorem State.setMem_quotaFull (s : State) (m : Memory) (q : Port) : (s.setMem m).quotaFull q = s.quotaFull q := rfl
@[simp] theorem State.setMem_holds (s : State) (m : Memory) (c : Claimant) : (s.setMem m).holds c = s.holds c := rfl

/-! ### setWindow -/

@[simp] theorem State.setWindow_pending (s : State) (p : Port) (w : WindowUnit) : (s.setWindow p w).pending = s.pending := rfl
@[simp] theorem State.setWindow_rstLow (s : State) (p : Port) (w : WindowUnit) : (s.setWindow p w).rstLow = s.rstLow := rfl
@[simp] theorem State.setWindow_splitQuota (s : State) (p : Port) (w : WindowUnit) : (s.setWindow p w).splitQuota = s.splitQuota := rfl
@[simp] theorem State.setWindow_mem (s : State) (p : Port) (w : WindowUnit) : (s.setWindow p w).mem = s.mem := rfl
@[simp] theorem State.setWindow_frames (s : State) (p : Port) (w : WindowUnit) : (s.setWindow p w).frames = s.frames := rfl
@[simp] theorem State.setWindow_inboxes (s : State) (p : Port) (w : WindowUnit) : (s.setWindow p w).inboxes = s.inboxes := rfl
@[simp] theorem State.setWindow_closingTaken (s : State) (p : Port) (w : WindowUnit) : (s.setWindow p w).closingTaken = s.closingTaken := rfl
@[simp] theorem State.setWindow_dirMail (s : State) (p : Port) (w : WindowUnit) : (s.setWindow p w).dirMail = s.dirMail := rfl
@[simp] theorem State.setWindow_scrub (s : State) (p : Port) (w : WindowUnit) : (s.setWindow p w).scrub = s.scrub := rfl
@[simp] theorem State.setWindow_tickCount (s : State) (p : Port) (w : WindowUnit) : (s.setWindow p w).tickCount = s.tickCount := rfl
@[simp] theorem State.setWindow_windows (s : State) (p : Port) (w : WindowUnit) : (s.setWindow p w).windows = put s.windows p w := rfl
@[simp] theorem State.setWindow_copy_rings (s : State) (p : Port) (w : WindowUnit) : (s.setWindow p w).copy.rings = s.copy.rings := rfl
@[simp] theorem State.setWindow_copy_engine (s : State) (p : Port) (w : WindowUnit) : (s.setWindow p w).copy.engine = s.copy.engine := rfl
@[simp] theorem State.setWindow_copy_pointer (s : State) (p : Port) (w : WindowUnit) : (s.setWindow p w).copy.pointer = s.copy.pointer := rfl
@[simp] theorem State.setWindow_copy_owed (s : State) (p : Port) (w : WindowUnit) : (s.setWindow p w).copy.owed = s.copy.owed := rfl
@[simp] theorem State.setWindow_queues (s : State) (p : Port) (w : WindowUnit) : (s.setWindow p w).queues = s.queues := rfl
@[simp] theorem State.setWindow_handovers (s : State) (p : Port) (w : WindowUnit) : (s.setWindow p w).handovers = s.handovers := rfl
@[simp] theorem State.setWindow_commands (s : State) (p : Port) (w : WindowUnit) : (s.setWindow p w).commands = s.commands := rfl
@[simp] theorem State.setWindow_sessions (s : State) (p : Port) (w : WindowUnit) : (s.setWindow p w).sessions = s.sessions := rfl
@[simp] theorem State.setWindow_arbiter (s : State) (p : Port) (w : WindowUnit) : (s.setWindow p w).arbiter = s.arbiter := rfl
@[simp] theorem State.setWindow_draws (s : State) (p : Port) (w : WindowUnit) : (s.setWindow p w).draws = s.draws := rfl
@[simp] theorem State.setWindow_copy (s : State) (p : Port) (w : WindowUnit) : (s.setWindow p w).copy = s.copy := rfl
@[simp] theorem State.setWindow_frame (s : State) (p : Port) (w : WindowUnit) (g : Frame) : (s.setWindow p w).frame g = s.frame g := rfl
@[simp] theorem State.setWindow_inbox (s : State) (p : Port) (w : WindowUnit) (q : Port) : (s.setWindow p w).inbox q = s.inbox q := rfl
@[simp] theorem State.setWindow_ring (s : State) (p : Port) (w : WindowUnit) (q : Port) : (s.setWindow p w).ring q = s.ring q := rfl
@[simp] theorem State.setWindow_queue (s : State) (p : Port) (w : WindowUnit) (q : Port) : (s.setWindow p w).queue q = s.queue q := rfl
@[simp] theorem State.setWindow_command (s : State) (p : Port) (w : WindowUnit) (q : Port) : (s.setWindow p w).command q = s.command q := rfl
@[simp] theorem State.setWindow_session (s : State) (p : Port) (w : WindowUnit) (q : Port) : (s.setWindow p w).session q = s.session q := rfl
@[simp] theorem State.setWindow_isUp (s : State) (p : Port) (w : WindowUnit) (q : Port) : (s.setWindow p w).isUp q = s.isUp q := rfl
@[simp] theorem State.setWindow_isClosing (s : State) (p : Port) (w : WindowUnit) (q : Port) : (s.setWindow p w).isClosing q = s.isClosing q := rfl
@[simp] theorem State.setWindow_dirUp (s : State) (p : Port) (w : WindowUnit) (q : Port) : (s.setWindow p w).dirUp q = s.dirUp q := rfl
@[simp] theorem State.setWindow_quotaCount (s : State) (p : Port) (w : WindowUnit) (q : Port) : (s.setWindow p w).quotaCount q = s.quotaCount q := rfl
@[simp] theorem State.setWindow_quotaFull (s : State) (p : Port) (w : WindowUnit) (q : Port) : (s.setWindow p w).quotaFull q = s.quotaFull q := rfl
@[simp] theorem State.setWindow_holds (s : State) (p : Port) (w : WindowUnit) (c : Claimant) : (s.setWindow p w).holds c = s.holds c := rfl

/-! ### setRing -/

@[simp] theorem State.setRing_pending (s : State) (p : Port) (r : Ring) : (s.setRing p r).pending = s.pending := rfl
@[simp] theorem State.setRing_rstLow (s : State) (p : Port) (r : Ring) : (s.setRing p r).rstLow = s.rstLow := rfl
@[simp] theorem State.setRing_splitQuota (s : State) (p : Port) (r : Ring) : (s.setRing p r).splitQuota = s.splitQuota := rfl
@[simp] theorem State.setRing_mem (s : State) (p : Port) (r : Ring) : (s.setRing p r).mem = s.mem := rfl
@[simp] theorem State.setRing_frames (s : State) (p : Port) (r : Ring) : (s.setRing p r).frames = s.frames := rfl
@[simp] theorem State.setRing_inboxes (s : State) (p : Port) (r : Ring) : (s.setRing p r).inboxes = s.inboxes := rfl
@[simp] theorem State.setRing_closingTaken (s : State) (p : Port) (r : Ring) : (s.setRing p r).closingTaken = s.closingTaken := rfl
@[simp] theorem State.setRing_dirMail (s : State) (p : Port) (r : Ring) : (s.setRing p r).dirMail = s.dirMail := rfl
@[simp] theorem State.setRing_scrub (s : State) (p : Port) (r : Ring) : (s.setRing p r).scrub = s.scrub := rfl
@[simp] theorem State.setRing_tickCount (s : State) (p : Port) (r : Ring) : (s.setRing p r).tickCount = s.tickCount := rfl
@[simp] theorem State.setRing_windows (s : State) (p : Port) (r : Ring) : (s.setRing p r).windows = s.windows := rfl
@[simp] theorem State.setRing_copy_rings (s : State) (p : Port) (r : Ring) : (s.setRing p r).copy.rings = put s.copy.rings p r := rfl
@[simp] theorem State.setRing_copy_engine (s : State) (p : Port) (r : Ring) : (s.setRing p r).copy.engine = s.copy.engine := rfl
@[simp] theorem State.setRing_copy_pointer (s : State) (p : Port) (r : Ring) : (s.setRing p r).copy.pointer = s.copy.pointer := rfl
@[simp] theorem State.setRing_copy_owed (s : State) (p : Port) (r : Ring) : (s.setRing p r).copy.owed = s.copy.owed := rfl
@[simp] theorem State.setRing_queues (s : State) (p : Port) (r : Ring) : (s.setRing p r).queues = s.queues := rfl
@[simp] theorem State.setRing_handovers (s : State) (p : Port) (r : Ring) : (s.setRing p r).handovers = s.handovers := rfl
@[simp] theorem State.setRing_commands (s : State) (p : Port) (r : Ring) : (s.setRing p r).commands = s.commands := rfl
@[simp] theorem State.setRing_sessions (s : State) (p : Port) (r : Ring) : (s.setRing p r).sessions = s.sessions := rfl
@[simp] theorem State.setRing_arbiter (s : State) (p : Port) (r : Ring) : (s.setRing p r).arbiter = s.arbiter := rfl
@[simp] theorem State.setRing_draws (s : State) (p : Port) (r : Ring) : (s.setRing p r).draws = s.draws := rfl
@[simp] theorem State.setRing_frame (s : State) (p : Port) (r : Ring) (g : Frame) : (s.setRing p r).frame g = s.frame g := rfl
@[simp] theorem State.setRing_inbox (s : State) (p : Port) (r : Ring) (q : Port) : (s.setRing p r).inbox q = s.inbox q := rfl
@[simp] theorem State.setRing_window (s : State) (p : Port) (r : Ring) (q : Port) : (s.setRing p r).window q = s.window q := rfl
@[simp] theorem State.setRing_queue (s : State) (p : Port) (r : Ring) (q : Port) : (s.setRing p r).queue q = s.queue q := rfl
@[simp] theorem State.setRing_command (s : State) (p : Port) (r : Ring) (q : Port) : (s.setRing p r).command q = s.command q := rfl
@[simp] theorem State.setRing_session (s : State) (p : Port) (r : Ring) (q : Port) : (s.setRing p r).session q = s.session q := rfl
@[simp] theorem State.setRing_isUp (s : State) (p : Port) (r : Ring) (q : Port) : (s.setRing p r).isUp q = s.isUp q := rfl
@[simp] theorem State.setRing_isClosing (s : State) (p : Port) (r : Ring) (q : Port) : (s.setRing p r).isClosing q = s.isClosing q := rfl
@[simp] theorem State.setRing_dirUp (s : State) (p : Port) (r : Ring) (q : Port) : (s.setRing p r).dirUp q = s.dirUp q := rfl
@[simp] theorem State.setRing_quotaCount (s : State) (p : Port) (r : Ring) (q : Port) : (s.setRing p r).quotaCount q = s.quotaCount q := rfl
@[simp] theorem State.setRing_quotaFull (s : State) (p : Port) (r : Ring) (q : Port) : (s.setRing p r).quotaFull q = s.quotaFull q := rfl
@[simp] theorem State.setRing_holds (s : State) (p : Port) (r : Ring) (c : Claimant) : (s.setRing p r).holds c = s.holds c := rfl

/-! ### setEngine -/

@[simp] theorem State.setEngine_pending (s : State) (e : EngineState) : (s.setEngine e).pending = s.pending := rfl
@[simp] theorem State.setEngine_rstLow (s : State) (e : EngineState) : (s.setEngine e).rstLow = s.rstLow := rfl
@[simp] theorem State.setEngine_splitQuota (s : State) (e : EngineState) : (s.setEngine e).splitQuota = s.splitQuota := rfl
@[simp] theorem State.setEngine_mem (s : State) (e : EngineState) : (s.setEngine e).mem = s.mem := rfl
@[simp] theorem State.setEngine_frames (s : State) (e : EngineState) : (s.setEngine e).frames = s.frames := rfl
@[simp] theorem State.setEngine_inboxes (s : State) (e : EngineState) : (s.setEngine e).inboxes = s.inboxes := rfl
@[simp] theorem State.setEngine_closingTaken (s : State) (e : EngineState) : (s.setEngine e).closingTaken = s.closingTaken := rfl
@[simp] theorem State.setEngine_dirMail (s : State) (e : EngineState) : (s.setEngine e).dirMail = s.dirMail := rfl
@[simp] theorem State.setEngine_scrub (s : State) (e : EngineState) : (s.setEngine e).scrub = s.scrub := rfl
@[simp] theorem State.setEngine_tickCount (s : State) (e : EngineState) : (s.setEngine e).tickCount = s.tickCount := rfl
@[simp] theorem State.setEngine_windows (s : State) (e : EngineState) : (s.setEngine e).windows = s.windows := rfl
@[simp] theorem State.setEngine_copy_rings (s : State) (e : EngineState) : (s.setEngine e).copy.rings = s.copy.rings := rfl
@[simp] theorem State.setEngine_copy_engine (s : State) (e : EngineState) : (s.setEngine e).copy.engine = e := rfl
@[simp] theorem State.setEngine_copy_pointer (s : State) (e : EngineState) : (s.setEngine e).copy.pointer = s.copy.pointer := rfl
@[simp] theorem State.setEngine_copy_owed (s : State) (e : EngineState) : (s.setEngine e).copy.owed = s.copy.owed := rfl
@[simp] theorem State.setEngine_queues (s : State) (e : EngineState) : (s.setEngine e).queues = s.queues := rfl
@[simp] theorem State.setEngine_handovers (s : State) (e : EngineState) : (s.setEngine e).handovers = s.handovers := rfl
@[simp] theorem State.setEngine_commands (s : State) (e : EngineState) : (s.setEngine e).commands = s.commands := rfl
@[simp] theorem State.setEngine_sessions (s : State) (e : EngineState) : (s.setEngine e).sessions = s.sessions := rfl
@[simp] theorem State.setEngine_arbiter (s : State) (e : EngineState) : (s.setEngine e).arbiter = s.arbiter := rfl
@[simp] theorem State.setEngine_draws (s : State) (e : EngineState) : (s.setEngine e).draws = s.draws := rfl
@[simp] theorem State.setEngine_frame (s : State) (e : EngineState) (g : Frame) : (s.setEngine e).frame g = s.frame g := rfl
@[simp] theorem State.setEngine_inbox (s : State) (e : EngineState) (q : Port) : (s.setEngine e).inbox q = s.inbox q := rfl
@[simp] theorem State.setEngine_window (s : State) (e : EngineState) (q : Port) : (s.setEngine e).window q = s.window q := rfl
@[simp] theorem State.setEngine_ring (s : State) (e : EngineState) (q : Port) : (s.setEngine e).ring q = s.ring q := rfl
@[simp] theorem State.setEngine_queue (s : State) (e : EngineState) (q : Port) : (s.setEngine e).queue q = s.queue q := rfl
@[simp] theorem State.setEngine_command (s : State) (e : EngineState) (q : Port) : (s.setEngine e).command q = s.command q := rfl
@[simp] theorem State.setEngine_session (s : State) (e : EngineState) (q : Port) : (s.setEngine e).session q = s.session q := rfl
@[simp] theorem State.setEngine_isUp (s : State) (e : EngineState) (q : Port) : (s.setEngine e).isUp q = s.isUp q := rfl
@[simp] theorem State.setEngine_isClosing (s : State) (e : EngineState) (q : Port) : (s.setEngine e).isClosing q = s.isClosing q := rfl
@[simp] theorem State.setEngine_dirUp (s : State) (e : EngineState) (q : Port) : (s.setEngine e).dirUp q = s.dirUp q := rfl
@[simp] theorem State.setEngine_quotaCount (s : State) (e : EngineState) (q : Port) : (s.setEngine e).quotaCount q = s.quotaCount q := rfl
@[simp] theorem State.setEngine_quotaFull (s : State) (e : EngineState) (q : Port) : (s.setEngine e).quotaFull q = s.quotaFull q := rfl
@[simp] theorem State.setEngine_holds (s : State) (e : EngineState) (c : Claimant) : (s.setEngine e).holds c = s.holds c := rfl

/-! ### setPointer -/

@[simp] theorem State.setPointer_pending (s : State) (p : Port) : (s.setPointer p).pending = s.pending := rfl
@[simp] theorem State.setPointer_rstLow (s : State) (p : Port) : (s.setPointer p).rstLow = s.rstLow := rfl
@[simp] theorem State.setPointer_splitQuota (s : State) (p : Port) : (s.setPointer p).splitQuota = s.splitQuota := rfl
@[simp] theorem State.setPointer_mem (s : State) (p : Port) : (s.setPointer p).mem = s.mem := rfl
@[simp] theorem State.setPointer_frames (s : State) (p : Port) : (s.setPointer p).frames = s.frames := rfl
@[simp] theorem State.setPointer_inboxes (s : State) (p : Port) : (s.setPointer p).inboxes = s.inboxes := rfl
@[simp] theorem State.setPointer_closingTaken (s : State) (p : Port) : (s.setPointer p).closingTaken = s.closingTaken := rfl
@[simp] theorem State.setPointer_dirMail (s : State) (p : Port) : (s.setPointer p).dirMail = s.dirMail := rfl
@[simp] theorem State.setPointer_scrub (s : State) (p : Port) : (s.setPointer p).scrub = s.scrub := rfl
@[simp] theorem State.setPointer_tickCount (s : State) (p : Port) : (s.setPointer p).tickCount = s.tickCount := rfl
@[simp] theorem State.setPointer_windows (s : State) (p : Port) : (s.setPointer p).windows = s.windows := rfl
@[simp] theorem State.setPointer_copy_rings (s : State) (p : Port) : (s.setPointer p).copy.rings = s.copy.rings := rfl
@[simp] theorem State.setPointer_copy_engine (s : State) (p : Port) : (s.setPointer p).copy.engine = s.copy.engine := rfl
@[simp] theorem State.setPointer_copy_pointer (s : State) (p : Port) : (s.setPointer p).copy.pointer = p := rfl
@[simp] theorem State.setPointer_copy_owed (s : State) (p : Port) : (s.setPointer p).copy.owed = s.copy.owed := rfl
@[simp] theorem State.setPointer_queues (s : State) (p : Port) : (s.setPointer p).queues = s.queues := rfl
@[simp] theorem State.setPointer_handovers (s : State) (p : Port) : (s.setPointer p).handovers = s.handovers := rfl
@[simp] theorem State.setPointer_commands (s : State) (p : Port) : (s.setPointer p).commands = s.commands := rfl
@[simp] theorem State.setPointer_sessions (s : State) (p : Port) : (s.setPointer p).sessions = s.sessions := rfl
@[simp] theorem State.setPointer_arbiter (s : State) (p : Port) : (s.setPointer p).arbiter = s.arbiter := rfl
@[simp] theorem State.setPointer_draws (s : State) (p : Port) : (s.setPointer p).draws = s.draws := rfl
@[simp] theorem State.setPointer_frame (s : State) (p : Port) (g : Frame) : (s.setPointer p).frame g = s.frame g := rfl
@[simp] theorem State.setPointer_inbox (s : State) (p : Port) (q : Port) : (s.setPointer p).inbox q = s.inbox q := rfl
@[simp] theorem State.setPointer_window (s : State) (p : Port) (q : Port) : (s.setPointer p).window q = s.window q := rfl
@[simp] theorem State.setPointer_ring (s : State) (p : Port) (q : Port) : (s.setPointer p).ring q = s.ring q := rfl
@[simp] theorem State.setPointer_queue (s : State) (p : Port) (q : Port) : (s.setPointer p).queue q = s.queue q := rfl
@[simp] theorem State.setPointer_command (s : State) (p : Port) (q : Port) : (s.setPointer p).command q = s.command q := rfl
@[simp] theorem State.setPointer_session (s : State) (p : Port) (q : Port) : (s.setPointer p).session q = s.session q := rfl
@[simp] theorem State.setPointer_isUp (s : State) (p : Port) (q : Port) : (s.setPointer p).isUp q = s.isUp q := rfl
@[simp] theorem State.setPointer_isClosing (s : State) (p : Port) (q : Port) : (s.setPointer p).isClosing q = s.isClosing q := rfl
@[simp] theorem State.setPointer_dirUp (s : State) (p : Port) (q : Port) : (s.setPointer p).dirUp q = s.dirUp q := rfl
@[simp] theorem State.setPointer_quotaCount (s : State) (p : Port) (q : Port) : (s.setPointer p).quotaCount q = s.quotaCount q := rfl
@[simp] theorem State.setPointer_quotaFull (s : State) (p : Port) (q : Port) : (s.setPointer p).quotaFull q = s.quotaFull q := rfl
@[simp] theorem State.setPointer_holds (s : State) (p : Port) (c : Claimant) : (s.setPointer p).holds c = s.holds c := rfl

/-! ### setOwed -/

@[simp] theorem State.setOwed_pending (s : State) (p : Port) (b : Bool) : (s.setOwed p b).pending = s.pending := rfl
@[simp] theorem State.setOwed_rstLow (s : State) (p : Port) (b : Bool) : (s.setOwed p b).rstLow = s.rstLow := rfl
@[simp] theorem State.setOwed_splitQuota (s : State) (p : Port) (b : Bool) : (s.setOwed p b).splitQuota = s.splitQuota := rfl
@[simp] theorem State.setOwed_mem (s : State) (p : Port) (b : Bool) : (s.setOwed p b).mem = s.mem := rfl
@[simp] theorem State.setOwed_frames (s : State) (p : Port) (b : Bool) : (s.setOwed p b).frames = s.frames := rfl
@[simp] theorem State.setOwed_inboxes (s : State) (p : Port) (b : Bool) : (s.setOwed p b).inboxes = s.inboxes := rfl
@[simp] theorem State.setOwed_closingTaken (s : State) (p : Port) (b : Bool) : (s.setOwed p b).closingTaken = s.closingTaken := rfl
@[simp] theorem State.setOwed_dirMail (s : State) (p : Port) (b : Bool) : (s.setOwed p b).dirMail = s.dirMail := rfl
@[simp] theorem State.setOwed_scrub (s : State) (p : Port) (b : Bool) : (s.setOwed p b).scrub = s.scrub := rfl
@[simp] theorem State.setOwed_tickCount (s : State) (p : Port) (b : Bool) : (s.setOwed p b).tickCount = s.tickCount := rfl
@[simp] theorem State.setOwed_windows (s : State) (p : Port) (b : Bool) : (s.setOwed p b).windows = s.windows := rfl
@[simp] theorem State.setOwed_copy_rings (s : State) (p : Port) (b : Bool) : (s.setOwed p b).copy.rings = s.copy.rings := rfl
@[simp] theorem State.setOwed_copy_engine (s : State) (p : Port) (b : Bool) : (s.setOwed p b).copy.engine = s.copy.engine := rfl
@[simp] theorem State.setOwed_copy_pointer (s : State) (p : Port) (b : Bool) : (s.setOwed p b).copy.pointer = s.copy.pointer := rfl
@[simp] theorem State.setOwed_copy_owed (s : State) (p : Port) (b : Bool) : (s.setOwed p b).copy.owed = put s.copy.owed p b := rfl
@[simp] theorem State.setOwed_queues (s : State) (p : Port) (b : Bool) : (s.setOwed p b).queues = s.queues := rfl
@[simp] theorem State.setOwed_handovers (s : State) (p : Port) (b : Bool) : (s.setOwed p b).handovers = s.handovers := rfl
@[simp] theorem State.setOwed_commands (s : State) (p : Port) (b : Bool) : (s.setOwed p b).commands = s.commands := rfl
@[simp] theorem State.setOwed_sessions (s : State) (p : Port) (b : Bool) : (s.setOwed p b).sessions = s.sessions := rfl
@[simp] theorem State.setOwed_arbiter (s : State) (p : Port) (b : Bool) : (s.setOwed p b).arbiter = s.arbiter := rfl
@[simp] theorem State.setOwed_draws (s : State) (p : Port) (b : Bool) : (s.setOwed p b).draws = s.draws := rfl
@[simp] theorem State.setOwed_frame (s : State) (p : Port) (b : Bool) (g : Frame) : (s.setOwed p b).frame g = s.frame g := rfl
@[simp] theorem State.setOwed_inbox (s : State) (p : Port) (b : Bool) (q : Port) : (s.setOwed p b).inbox q = s.inbox q := rfl
@[simp] theorem State.setOwed_window (s : State) (p : Port) (b : Bool) (q : Port) : (s.setOwed p b).window q = s.window q := rfl
@[simp] theorem State.setOwed_ring (s : State) (p : Port) (b : Bool) (q : Port) : (s.setOwed p b).ring q = s.ring q := rfl
@[simp] theorem State.setOwed_queue (s : State) (p : Port) (b : Bool) (q : Port) : (s.setOwed p b).queue q = s.queue q := rfl
@[simp] theorem State.setOwed_command (s : State) (p : Port) (b : Bool) (q : Port) : (s.setOwed p b).command q = s.command q := rfl
@[simp] theorem State.setOwed_session (s : State) (p : Port) (b : Bool) (q : Port) : (s.setOwed p b).session q = s.session q := rfl
@[simp] theorem State.setOwed_isUp (s : State) (p : Port) (b : Bool) (q : Port) : (s.setOwed p b).isUp q = s.isUp q := rfl
@[simp] theorem State.setOwed_isClosing (s : State) (p : Port) (b : Bool) (q : Port) : (s.setOwed p b).isClosing q = s.isClosing q := rfl
@[simp] theorem State.setOwed_dirUp (s : State) (p : Port) (b : Bool) (q : Port) : (s.setOwed p b).dirUp q = s.dirUp q := rfl
@[simp] theorem State.setOwed_quotaCount (s : State) (p : Port) (b : Bool) (q : Port) : (s.setOwed p b).quotaCount q = s.quotaCount q := rfl
@[simp] theorem State.setOwed_quotaFull (s : State) (p : Port) (b : Bool) (q : Port) : (s.setOwed p b).quotaFull q = s.quotaFull q := rfl
@[simp] theorem State.setOwed_holds (s : State) (p : Port) (b : Bool) (c : Claimant) : (s.setOwed p b).holds c = s.holds c := rfl

/-! ### setQueue -/

@[simp] theorem State.setQueue_pending (s : State) (p : Port) (q : EventPort) : (s.setQueue p q).pending = s.pending := rfl
@[simp] theorem State.setQueue_rstLow (s : State) (p : Port) (q : EventPort) : (s.setQueue p q).rstLow = s.rstLow := rfl
@[simp] theorem State.setQueue_splitQuota (s : State) (p : Port) (q : EventPort) : (s.setQueue p q).splitQuota = s.splitQuota := rfl
@[simp] theorem State.setQueue_mem (s : State) (p : Port) (q : EventPort) : (s.setQueue p q).mem = s.mem := rfl
@[simp] theorem State.setQueue_frames (s : State) (p : Port) (q : EventPort) : (s.setQueue p q).frames = s.frames := rfl
@[simp] theorem State.setQueue_inboxes (s : State) (p : Port) (q : EventPort) : (s.setQueue p q).inboxes = s.inboxes := rfl
@[simp] theorem State.setQueue_closingTaken (s : State) (p : Port) (q : EventPort) : (s.setQueue p q).closingTaken = s.closingTaken := rfl
@[simp] theorem State.setQueue_dirMail (s : State) (p : Port) (q : EventPort) : (s.setQueue p q).dirMail = s.dirMail := rfl
@[simp] theorem State.setQueue_scrub (s : State) (p : Port) (q : EventPort) : (s.setQueue p q).scrub = s.scrub := rfl
@[simp] theorem State.setQueue_tickCount (s : State) (p : Port) (q : EventPort) : (s.setQueue p q).tickCount = s.tickCount := rfl
@[simp] theorem State.setQueue_windows (s : State) (p : Port) (q : EventPort) : (s.setQueue p q).windows = s.windows := rfl
@[simp] theorem State.setQueue_copy_rings (s : State) (p : Port) (q : EventPort) : (s.setQueue p q).copy.rings = s.copy.rings := rfl
@[simp] theorem State.setQueue_copy_engine (s : State) (p : Port) (q : EventPort) : (s.setQueue p q).copy.engine = s.copy.engine := rfl
@[simp] theorem State.setQueue_copy_pointer (s : State) (p : Port) (q : EventPort) : (s.setQueue p q).copy.pointer = s.copy.pointer := rfl
@[simp] theorem State.setQueue_copy_owed (s : State) (p : Port) (q : EventPort) : (s.setQueue p q).copy.owed = s.copy.owed := rfl
@[simp] theorem State.setQueue_queues (s : State) (p : Port) (q : EventPort) : (s.setQueue p q).queues = put s.queues p q := rfl
@[simp] theorem State.setQueue_handovers (s : State) (p : Port) (q : EventPort) : (s.setQueue p q).handovers = s.handovers := rfl
@[simp] theorem State.setQueue_commands (s : State) (p : Port) (q : EventPort) : (s.setQueue p q).commands = s.commands := rfl
@[simp] theorem State.setQueue_sessions (s : State) (p : Port) (q : EventPort) : (s.setQueue p q).sessions = s.sessions := rfl
@[simp] theorem State.setQueue_arbiter (s : State) (p : Port) (q : EventPort) : (s.setQueue p q).arbiter = s.arbiter := rfl
@[simp] theorem State.setQueue_draws (s : State) (p : Port) (q : EventPort) : (s.setQueue p q).draws = s.draws := rfl
@[simp] theorem State.setQueue_copy (s : State) (p : Port) (q : EventPort) : (s.setQueue p q).copy = s.copy := rfl
@[simp] theorem State.setQueue_frame (s : State) (p : Port) (q : EventPort) (g : Frame) : (s.setQueue p q).frame g = s.frame g := rfl
@[simp] theorem State.setQueue_inbox (s : State) (p : Port) (q : EventPort) (y : Port) : (s.setQueue p q).inbox y = s.inbox y := rfl
@[simp] theorem State.setQueue_window (s : State) (p : Port) (q : EventPort) (y : Port) : (s.setQueue p q).window y = s.window y := rfl
@[simp] theorem State.setQueue_ring (s : State) (p : Port) (q : EventPort) (y : Port) : (s.setQueue p q).ring y = s.ring y := rfl
@[simp] theorem State.setQueue_command (s : State) (p : Port) (q : EventPort) (y : Port) : (s.setQueue p q).command y = s.command y := rfl
@[simp] theorem State.setQueue_session (s : State) (p : Port) (q : EventPort) (y : Port) : (s.setQueue p q).session y = s.session y := rfl
@[simp] theorem State.setQueue_isUp (s : State) (p : Port) (q : EventPort) (y : Port) : (s.setQueue p q).isUp y = s.isUp y := rfl
@[simp] theorem State.setQueue_isClosing (s : State) (p : Port) (q : EventPort) (y : Port) : (s.setQueue p q).isClosing y = s.isClosing y := rfl
@[simp] theorem State.setQueue_dirUp (s : State) (p : Port) (q : EventPort) (y : Port) : (s.setQueue p q).dirUp y = s.dirUp y := rfl
@[simp] theorem State.setQueue_quotaCount (s : State) (p : Port) (q : EventPort) (y : Port) : (s.setQueue p q).quotaCount y = s.quotaCount y := rfl
@[simp] theorem State.setQueue_quotaFull (s : State) (p : Port) (q : EventPort) (y : Port) : (s.setQueue p q).quotaFull y = s.quotaFull y := rfl
@[simp] theorem State.setQueue_holds (s : State) (p : Port) (q : EventPort) (c : Claimant) : (s.setQueue p q).holds c = s.holds c := rfl

/-! ### setHandovers -/

@[simp] theorem State.setHandovers_pending (s : State) (l : List Handover) : (s.setHandovers l).pending = s.pending := rfl
@[simp] theorem State.setHandovers_rstLow (s : State) (l : List Handover) : (s.setHandovers l).rstLow = s.rstLow := rfl
@[simp] theorem State.setHandovers_splitQuota (s : State) (l : List Handover) : (s.setHandovers l).splitQuota = s.splitQuota := rfl
@[simp] theorem State.setHandovers_mem (s : State) (l : List Handover) : (s.setHandovers l).mem = s.mem := rfl
@[simp] theorem State.setHandovers_frames (s : State) (l : List Handover) : (s.setHandovers l).frames = s.frames := rfl
@[simp] theorem State.setHandovers_inboxes (s : State) (l : List Handover) : (s.setHandovers l).inboxes = s.inboxes := rfl
@[simp] theorem State.setHandovers_closingTaken (s : State) (l : List Handover) : (s.setHandovers l).closingTaken = s.closingTaken := rfl
@[simp] theorem State.setHandovers_dirMail (s : State) (l : List Handover) : (s.setHandovers l).dirMail = s.dirMail := rfl
@[simp] theorem State.setHandovers_scrub (s : State) (l : List Handover) : (s.setHandovers l).scrub = s.scrub := rfl
@[simp] theorem State.setHandovers_tickCount (s : State) (l : List Handover) : (s.setHandovers l).tickCount = s.tickCount := rfl
@[simp] theorem State.setHandovers_windows (s : State) (l : List Handover) : (s.setHandovers l).windows = s.windows := rfl
@[simp] theorem State.setHandovers_copy_rings (s : State) (l : List Handover) : (s.setHandovers l).copy.rings = s.copy.rings := rfl
@[simp] theorem State.setHandovers_copy_engine (s : State) (l : List Handover) : (s.setHandovers l).copy.engine = s.copy.engine := rfl
@[simp] theorem State.setHandovers_copy_pointer (s : State) (l : List Handover) : (s.setHandovers l).copy.pointer = s.copy.pointer := rfl
@[simp] theorem State.setHandovers_copy_owed (s : State) (l : List Handover) : (s.setHandovers l).copy.owed = s.copy.owed := rfl
@[simp] theorem State.setHandovers_queues (s : State) (l : List Handover) : (s.setHandovers l).queues = s.queues := rfl
@[simp] theorem State.setHandovers_handovers (s : State) (l : List Handover) : (s.setHandovers l).handovers = l := rfl
@[simp] theorem State.setHandovers_commands (s : State) (l : List Handover) : (s.setHandovers l).commands = s.commands := rfl
@[simp] theorem State.setHandovers_sessions (s : State) (l : List Handover) : (s.setHandovers l).sessions = s.sessions := rfl
@[simp] theorem State.setHandovers_arbiter (s : State) (l : List Handover) : (s.setHandovers l).arbiter = s.arbiter := rfl
@[simp] theorem State.setHandovers_draws (s : State) (l : List Handover) : (s.setHandovers l).draws = s.draws := rfl
@[simp] theorem State.setHandovers_copy (s : State) (l : List Handover) : (s.setHandovers l).copy = s.copy := rfl
@[simp] theorem State.setHandovers_frame (s : State) (l : List Handover) (g : Frame) : (s.setHandovers l).frame g = s.frame g := rfl
@[simp] theorem State.setHandovers_inbox (s : State) (l : List Handover) (q : Port) : (s.setHandovers l).inbox q = s.inbox q := rfl
@[simp] theorem State.setHandovers_window (s : State) (l : List Handover) (q : Port) : (s.setHandovers l).window q = s.window q := rfl
@[simp] theorem State.setHandovers_ring (s : State) (l : List Handover) (q : Port) : (s.setHandovers l).ring q = s.ring q := rfl
@[simp] theorem State.setHandovers_queue (s : State) (l : List Handover) (q : Port) : (s.setHandovers l).queue q = s.queue q := rfl
@[simp] theorem State.setHandovers_command (s : State) (l : List Handover) (q : Port) : (s.setHandovers l).command q = s.command q := rfl
@[simp] theorem State.setHandovers_session (s : State) (l : List Handover) (q : Port) : (s.setHandovers l).session q = s.session q := rfl
@[simp] theorem State.setHandovers_isUp (s : State) (l : List Handover) (q : Port) : (s.setHandovers l).isUp q = s.isUp q := rfl
@[simp] theorem State.setHandovers_isClosing (s : State) (l : List Handover) (q : Port) : (s.setHandovers l).isClosing q = s.isClosing q := rfl
@[simp] theorem State.setHandovers_dirUp (s : State) (l : List Handover) (q : Port) : (s.setHandovers l).dirUp q = s.dirUp q := rfl
@[simp] theorem State.setHandovers_quotaCount (s : State) (l : List Handover) (q : Port) : (s.setHandovers l).quotaCount q = s.quotaCount q := rfl
@[simp] theorem State.setHandovers_quotaFull (s : State) (l : List Handover) (q : Port) : (s.setHandovers l).quotaFull q = s.quotaFull q := rfl
@[simp] theorem State.setHandovers_holds (s : State) (l : List Handover) (c : Claimant) : (s.setHandovers l).holds c = s.holds c := rfl

/-! ### setCommand -/

@[simp] theorem State.setCommand_pending (s : State) (p : Port) (c : CommandBlock) : (s.setCommand p c).pending = s.pending := rfl
@[simp] theorem State.setCommand_rstLow (s : State) (p : Port) (c : CommandBlock) : (s.setCommand p c).rstLow = s.rstLow := rfl
@[simp] theorem State.setCommand_splitQuota (s : State) (p : Port) (c : CommandBlock) : (s.setCommand p c).splitQuota = s.splitQuota := rfl
@[simp] theorem State.setCommand_mem (s : State) (p : Port) (c : CommandBlock) : (s.setCommand p c).mem = s.mem := rfl
@[simp] theorem State.setCommand_frames (s : State) (p : Port) (c : CommandBlock) : (s.setCommand p c).frames = s.frames := rfl
@[simp] theorem State.setCommand_inboxes (s : State) (p : Port) (c : CommandBlock) : (s.setCommand p c).inboxes = s.inboxes := rfl
@[simp] theorem State.setCommand_closingTaken (s : State) (p : Port) (c : CommandBlock) : (s.setCommand p c).closingTaken = s.closingTaken := rfl
@[simp] theorem State.setCommand_dirMail (s : State) (p : Port) (c : CommandBlock) : (s.setCommand p c).dirMail = s.dirMail := rfl
@[simp] theorem State.setCommand_scrub (s : State) (p : Port) (c : CommandBlock) : (s.setCommand p c).scrub = s.scrub := rfl
@[simp] theorem State.setCommand_tickCount (s : State) (p : Port) (c : CommandBlock) : (s.setCommand p c).tickCount = s.tickCount := rfl
@[simp] theorem State.setCommand_windows (s : State) (p : Port) (c : CommandBlock) : (s.setCommand p c).windows = s.windows := rfl
@[simp] theorem State.setCommand_copy_rings (s : State) (p : Port) (c : CommandBlock) : (s.setCommand p c).copy.rings = s.copy.rings := rfl
@[simp] theorem State.setCommand_copy_engine (s : State) (p : Port) (c : CommandBlock) : (s.setCommand p c).copy.engine = s.copy.engine := rfl
@[simp] theorem State.setCommand_copy_pointer (s : State) (p : Port) (c : CommandBlock) : (s.setCommand p c).copy.pointer = s.copy.pointer := rfl
@[simp] theorem State.setCommand_copy_owed (s : State) (p : Port) (c : CommandBlock) : (s.setCommand p c).copy.owed = s.copy.owed := rfl
@[simp] theorem State.setCommand_queues (s : State) (p : Port) (c : CommandBlock) : (s.setCommand p c).queues = s.queues := rfl
@[simp] theorem State.setCommand_handovers (s : State) (p : Port) (c : CommandBlock) : (s.setCommand p c).handovers = s.handovers := rfl
@[simp] theorem State.setCommand_commands (s : State) (p : Port) (c : CommandBlock) : (s.setCommand p c).commands = put s.commands p c := rfl
@[simp] theorem State.setCommand_sessions (s : State) (p : Port) (c : CommandBlock) : (s.setCommand p c).sessions = s.sessions := rfl
@[simp] theorem State.setCommand_arbiter (s : State) (p : Port) (c : CommandBlock) : (s.setCommand p c).arbiter = s.arbiter := rfl
@[simp] theorem State.setCommand_draws (s : State) (p : Port) (c : CommandBlock) : (s.setCommand p c).draws = s.draws := rfl
@[simp] theorem State.setCommand_copy (s : State) (p : Port) (c : CommandBlock) : (s.setCommand p c).copy = s.copy := rfl
@[simp] theorem State.setCommand_frame (s : State) (p : Port) (c : CommandBlock) (g : Frame) : (s.setCommand p c).frame g = s.frame g := rfl
@[simp] theorem State.setCommand_inbox (s : State) (p : Port) (c : CommandBlock) (q : Port) : (s.setCommand p c).inbox q = s.inbox q := rfl
@[simp] theorem State.setCommand_window (s : State) (p : Port) (c : CommandBlock) (q : Port) : (s.setCommand p c).window q = s.window q := rfl
@[simp] theorem State.setCommand_ring (s : State) (p : Port) (c : CommandBlock) (q : Port) : (s.setCommand p c).ring q = s.ring q := rfl
@[simp] theorem State.setCommand_queue (s : State) (p : Port) (c : CommandBlock) (q : Port) : (s.setCommand p c).queue q = s.queue q := rfl
@[simp] theorem State.setCommand_session (s : State) (p : Port) (c : CommandBlock) (q : Port) : (s.setCommand p c).session q = s.session q := rfl
@[simp] theorem State.setCommand_isUp (s : State) (p : Port) (c : CommandBlock) (q : Port) : (s.setCommand p c).isUp q = s.isUp q := rfl
@[simp] theorem State.setCommand_isClosing (s : State) (p : Port) (c : CommandBlock) (q : Port) : (s.setCommand p c).isClosing q = s.isClosing q := rfl
@[simp] theorem State.setCommand_dirUp (s : State) (p : Port) (c : CommandBlock) (q : Port) : (s.setCommand p c).dirUp q = s.dirUp q := rfl
@[simp] theorem State.setCommand_quotaCount (s : State) (p : Port) (c : CommandBlock) (q : Port) : (s.setCommand p c).quotaCount q = s.quotaCount q := rfl
@[simp] theorem State.setCommand_quotaFull (s : State) (p : Port) (c : CommandBlock) (q : Port) : (s.setCommand p c).quotaFull q = s.quotaFull q := rfl
@[simp] theorem State.setCommand_holds (s : State) (p : Port) (c : CommandBlock) (y : Claimant) : (s.setCommand p c).holds y = s.holds y := rfl

/-! ### setSession -/

@[simp] theorem State.setSession_pending (s : State) (p : Port) (r : SessionRecord) : (s.setSession p r).pending = s.pending := rfl
@[simp] theorem State.setSession_rstLow (s : State) (p : Port) (r : SessionRecord) : (s.setSession p r).rstLow = s.rstLow := rfl
@[simp] theorem State.setSession_splitQuota (s : State) (p : Port) (r : SessionRecord) : (s.setSession p r).splitQuota = s.splitQuota := rfl
@[simp] theorem State.setSession_mem (s : State) (p : Port) (r : SessionRecord) : (s.setSession p r).mem = s.mem := rfl
@[simp] theorem State.setSession_frames (s : State) (p : Port) (r : SessionRecord) : (s.setSession p r).frames = s.frames := rfl
@[simp] theorem State.setSession_inboxes (s : State) (p : Port) (r : SessionRecord) : (s.setSession p r).inboxes = s.inboxes := rfl
@[simp] theorem State.setSession_closingTaken (s : State) (p : Port) (r : SessionRecord) : (s.setSession p r).closingTaken = s.closingTaken := rfl
@[simp] theorem State.setSession_dirMail (s : State) (p : Port) (r : SessionRecord) : (s.setSession p r).dirMail = s.dirMail := rfl
@[simp] theorem State.setSession_scrub (s : State) (p : Port) (r : SessionRecord) : (s.setSession p r).scrub = s.scrub := rfl
@[simp] theorem State.setSession_tickCount (s : State) (p : Port) (r : SessionRecord) : (s.setSession p r).tickCount = s.tickCount := rfl
@[simp] theorem State.setSession_windows (s : State) (p : Port) (r : SessionRecord) : (s.setSession p r).windows = s.windows := rfl
@[simp] theorem State.setSession_copy_rings (s : State) (p : Port) (r : SessionRecord) : (s.setSession p r).copy.rings = s.copy.rings := rfl
@[simp] theorem State.setSession_copy_engine (s : State) (p : Port) (r : SessionRecord) : (s.setSession p r).copy.engine = s.copy.engine := rfl
@[simp] theorem State.setSession_copy_pointer (s : State) (p : Port) (r : SessionRecord) : (s.setSession p r).copy.pointer = s.copy.pointer := rfl
@[simp] theorem State.setSession_copy_owed (s : State) (p : Port) (r : SessionRecord) : (s.setSession p r).copy.owed = s.copy.owed := rfl
@[simp] theorem State.setSession_queues (s : State) (p : Port) (r : SessionRecord) : (s.setSession p r).queues = s.queues := rfl
@[simp] theorem State.setSession_handovers (s : State) (p : Port) (r : SessionRecord) : (s.setSession p r).handovers = s.handovers := rfl
@[simp] theorem State.setSession_commands (s : State) (p : Port) (r : SessionRecord) : (s.setSession p r).commands = s.commands := rfl
@[simp] theorem State.setSession_sessions (s : State) (p : Port) (r : SessionRecord) : (s.setSession p r).sessions = put s.sessions p r := rfl
@[simp] theorem State.setSession_arbiter (s : State) (p : Port) (r : SessionRecord) : (s.setSession p r).arbiter = s.arbiter := rfl
@[simp] theorem State.setSession_draws (s : State) (p : Port) (r : SessionRecord) : (s.setSession p r).draws = s.draws := rfl
@[simp] theorem State.setSession_copy (s : State) (p : Port) (r : SessionRecord) : (s.setSession p r).copy = s.copy := rfl
@[simp] theorem State.setSession_frame (s : State) (p : Port) (r : SessionRecord) (g : Frame) : (s.setSession p r).frame g = s.frame g := rfl
@[simp] theorem State.setSession_inbox (s : State) (p : Port) (r : SessionRecord) (q : Port) : (s.setSession p r).inbox q = s.inbox q := rfl
@[simp] theorem State.setSession_window (s : State) (p : Port) (r : SessionRecord) (q : Port) : (s.setSession p r).window q = s.window q := rfl
@[simp] theorem State.setSession_ring (s : State) (p : Port) (r : SessionRecord) (q : Port) : (s.setSession p r).ring q = s.ring q := rfl
@[simp] theorem State.setSession_queue (s : State) (p : Port) (r : SessionRecord) (q : Port) : (s.setSession p r).queue q = s.queue q := rfl
@[simp] theorem State.setSession_command (s : State) (p : Port) (r : SessionRecord) (q : Port) : (s.setSession p r).command q = s.command q := rfl
@[simp] theorem State.setSession_dirUp (s : State) (p : Port) (r : SessionRecord) (q : Port) : (s.setSession p r).dirUp q = s.dirUp q := rfl
@[simp] theorem State.setSession_quotaCount (s : State) (p : Port) (r : SessionRecord) (q : Port) : (s.setSession p r).quotaCount q = s.quotaCount q := rfl
@[simp] theorem State.setSession_quotaFull (s : State) (p : Port) (r : SessionRecord) (q : Port) : (s.setSession p r).quotaFull q = s.quotaFull q := rfl
@[simp] theorem State.setSession_holds (s : State) (p : Port) (r : SessionRecord) (c : Claimant) : (s.setSession p r).holds c = s.holds c := rfl

/-! ### setArbiter -/

@[simp] theorem State.setArbiter_pending (s : State) (a : Arbiter) : (s.setArbiter a).pending = s.pending := rfl
@[simp] theorem State.setArbiter_rstLow (s : State) (a : Arbiter) : (s.setArbiter a).rstLow = s.rstLow := rfl
@[simp] theorem State.setArbiter_splitQuota (s : State) (a : Arbiter) : (s.setArbiter a).splitQuota = s.splitQuota := rfl
@[simp] theorem State.setArbiter_mem (s : State) (a : Arbiter) : (s.setArbiter a).mem = s.mem := rfl
@[simp] theorem State.setArbiter_frames (s : State) (a : Arbiter) : (s.setArbiter a).frames = s.frames := rfl
@[simp] theorem State.setArbiter_inboxes (s : State) (a : Arbiter) : (s.setArbiter a).inboxes = s.inboxes := rfl
@[simp] theorem State.setArbiter_closingTaken (s : State) (a : Arbiter) : (s.setArbiter a).closingTaken = s.closingTaken := rfl
@[simp] theorem State.setArbiter_dirMail (s : State) (a : Arbiter) : (s.setArbiter a).dirMail = s.dirMail := rfl
@[simp] theorem State.setArbiter_scrub (s : State) (a : Arbiter) : (s.setArbiter a).scrub = s.scrub := rfl
@[simp] theorem State.setArbiter_tickCount (s : State) (a : Arbiter) : (s.setArbiter a).tickCount = s.tickCount := rfl
@[simp] theorem State.setArbiter_windows (s : State) (a : Arbiter) : (s.setArbiter a).windows = s.windows := rfl
@[simp] theorem State.setArbiter_copy_rings (s : State) (a : Arbiter) : (s.setArbiter a).copy.rings = s.copy.rings := rfl
@[simp] theorem State.setArbiter_copy_engine (s : State) (a : Arbiter) : (s.setArbiter a).copy.engine = s.copy.engine := rfl
@[simp] theorem State.setArbiter_copy_pointer (s : State) (a : Arbiter) : (s.setArbiter a).copy.pointer = s.copy.pointer := rfl
@[simp] theorem State.setArbiter_copy_owed (s : State) (a : Arbiter) : (s.setArbiter a).copy.owed = s.copy.owed := rfl
@[simp] theorem State.setArbiter_queues (s : State) (a : Arbiter) : (s.setArbiter a).queues = s.queues := rfl
@[simp] theorem State.setArbiter_handovers (s : State) (a : Arbiter) : (s.setArbiter a).handovers = s.handovers := rfl
@[simp] theorem State.setArbiter_commands (s : State) (a : Arbiter) : (s.setArbiter a).commands = s.commands := rfl
@[simp] theorem State.setArbiter_sessions (s : State) (a : Arbiter) : (s.setArbiter a).sessions = s.sessions := rfl
@[simp] theorem State.setArbiter_arbiter (s : State) (a : Arbiter) : (s.setArbiter a).arbiter = a := rfl
@[simp] theorem State.setArbiter_draws (s : State) (a : Arbiter) : (s.setArbiter a).draws = s.draws := rfl
@[simp] theorem State.setArbiter_copy (s : State) (a : Arbiter) : (s.setArbiter a).copy = s.copy := rfl
@[simp] theorem State.setArbiter_frame (s : State) (a : Arbiter) (g : Frame) : (s.setArbiter a).frame g = s.frame g := rfl
@[simp] theorem State.setArbiter_inbox (s : State) (a : Arbiter) (q : Port) : (s.setArbiter a).inbox q = s.inbox q := rfl
@[simp] theorem State.setArbiter_window (s : State) (a : Arbiter) (q : Port) : (s.setArbiter a).window q = s.window q := rfl
@[simp] theorem State.setArbiter_ring (s : State) (a : Arbiter) (q : Port) : (s.setArbiter a).ring q = s.ring q := rfl
@[simp] theorem State.setArbiter_queue (s : State) (a : Arbiter) (q : Port) : (s.setArbiter a).queue q = s.queue q := rfl
@[simp] theorem State.setArbiter_command (s : State) (a : Arbiter) (q : Port) : (s.setArbiter a).command q = s.command q := rfl
@[simp] theorem State.setArbiter_session (s : State) (a : Arbiter) (q : Port) : (s.setArbiter a).session q = s.session q := rfl
@[simp] theorem State.setArbiter_isUp (s : State) (a : Arbiter) (q : Port) : (s.setArbiter a).isUp q = s.isUp q := rfl
@[simp] theorem State.setArbiter_isClosing (s : State) (a : Arbiter) (q : Port) : (s.setArbiter a).isClosing q = s.isClosing q := rfl
@[simp] theorem State.setArbiter_dirUp (s : State) (a : Arbiter) (q : Port) : (s.setArbiter a).dirUp q = s.dirUp q := rfl
@[simp] theorem State.setArbiter_quotaCount (s : State) (a : Arbiter) (q : Port) : (s.setArbiter a).quotaCount q = s.quotaCount q := rfl
@[simp] theorem State.setArbiter_quotaFull (s : State) (a : Arbiter) (q : Port) : (s.setArbiter a).quotaFull q = s.quotaFull q := rfl

/-! ### setPending -/

@[simp] theorem State.setPending_pending (s : State) (l : List Instr) : (s.setPending l).pending = l := rfl
@[simp] theorem State.setPending_rstLow (s : State) (l : List Instr) : (s.setPending l).rstLow = s.rstLow := rfl
@[simp] theorem State.setPending_splitQuota (s : State) (l : List Instr) : (s.setPending l).splitQuota = s.splitQuota := rfl
@[simp] theorem State.setPending_mem (s : State) (l : List Instr) : (s.setPending l).mem = s.mem := rfl
@[simp] theorem State.setPending_frames (s : State) (l : List Instr) : (s.setPending l).frames = s.frames := rfl
@[simp] theorem State.setPending_inboxes (s : State) (l : List Instr) : (s.setPending l).inboxes = s.inboxes := rfl
@[simp] theorem State.setPending_closingTaken (s : State) (l : List Instr) : (s.setPending l).closingTaken = s.closingTaken := rfl
@[simp] theorem State.setPending_dirMail (s : State) (l : List Instr) : (s.setPending l).dirMail = s.dirMail := rfl
@[simp] theorem State.setPending_scrub (s : State) (l : List Instr) : (s.setPending l).scrub = s.scrub := rfl
@[simp] theorem State.setPending_tickCount (s : State) (l : List Instr) : (s.setPending l).tickCount = s.tickCount := rfl
@[simp] theorem State.setPending_windows (s : State) (l : List Instr) : (s.setPending l).windows = s.windows := rfl
@[simp] theorem State.setPending_copy_rings (s : State) (l : List Instr) : (s.setPending l).copy.rings = s.copy.rings := rfl
@[simp] theorem State.setPending_copy_engine (s : State) (l : List Instr) : (s.setPending l).copy.engine = s.copy.engine := rfl
@[simp] theorem State.setPending_copy_pointer (s : State) (l : List Instr) : (s.setPending l).copy.pointer = s.copy.pointer := rfl
@[simp] theorem State.setPending_copy_owed (s : State) (l : List Instr) : (s.setPending l).copy.owed = s.copy.owed := rfl
@[simp] theorem State.setPending_queues (s : State) (l : List Instr) : (s.setPending l).queues = s.queues := rfl
@[simp] theorem State.setPending_handovers (s : State) (l : List Instr) : (s.setPending l).handovers = s.handovers := rfl
@[simp] theorem State.setPending_commands (s : State) (l : List Instr) : (s.setPending l).commands = s.commands := rfl
@[simp] theorem State.setPending_sessions (s : State) (l : List Instr) : (s.setPending l).sessions = s.sessions := rfl
@[simp] theorem State.setPending_arbiter (s : State) (l : List Instr) : (s.setPending l).arbiter = s.arbiter := rfl
@[simp] theorem State.setPending_draws (s : State) (l : List Instr) : (s.setPending l).draws = s.draws := rfl
@[simp] theorem State.setPending_copy (s : State) (l : List Instr) : (s.setPending l).copy = s.copy := rfl
@[simp] theorem State.setPending_frame (s : State) (l : List Instr) (g : Frame) : (s.setPending l).frame g = s.frame g := rfl
@[simp] theorem State.setPending_inbox (s : State) (l : List Instr) (q : Port) : (s.setPending l).inbox q = s.inbox q := rfl
@[simp] theorem State.setPending_window (s : State) (l : List Instr) (q : Port) : (s.setPending l).window q = s.window q := rfl
@[simp] theorem State.setPending_ring (s : State) (l : List Instr) (q : Port) : (s.setPending l).ring q = s.ring q := rfl
@[simp] theorem State.setPending_queue (s : State) (l : List Instr) (q : Port) : (s.setPending l).queue q = s.queue q := rfl
@[simp] theorem State.setPending_command (s : State) (l : List Instr) (q : Port) : (s.setPending l).command q = s.command q := rfl
@[simp] theorem State.setPending_session (s : State) (l : List Instr) (q : Port) : (s.setPending l).session q = s.session q := rfl
@[simp] theorem State.setPending_isUp (s : State) (l : List Instr) (q : Port) : (s.setPending l).isUp q = s.isUp q := rfl
@[simp] theorem State.setPending_isClosing (s : State) (l : List Instr) (q : Port) : (s.setPending l).isClosing q = s.isClosing q := rfl
@[simp] theorem State.setPending_dirUp (s : State) (l : List Instr) (q : Port) : (s.setPending l).dirUp q = s.dirUp q := rfl
@[simp] theorem State.setPending_quotaCount (s : State) (l : List Instr) (q : Port) : (s.setPending l).quotaCount q = s.quotaCount q := rfl
@[simp] theorem State.setPending_quotaFull (s : State) (l : List Instr) (q : Port) : (s.setPending l).quotaFull q = s.quotaFull q := rfl
@[simp] theorem State.setPending_holds (s : State) (l : List Instr) (c : Claimant) : (s.setPending l).holds c = s.holds c := rfl

/-! ### The entry an update replaces, and the others -/

@[simp] theorem State.setFrame_frame_same (s : State) (f : Frame) (r : FrameRecord) : (s.setFrame f r).frame f = r := sel_put_same ..
theorem State.setFrame_frame (s : State) (f : Frame) (r : FrameRecord) (g : Frame) :
    (s.setFrame f r).frame g = if g = f then r else s.frame g := sel_put ..
@[simp] theorem State.setFrame_frame_of_ne (s : State) (f : Frame) (r : FrameRecord) (g : Frame) (h : g ≠ f) :
    (s.setFrame f r).frame g = s.frame g := sel_put_of_ne _ _ _ _ h
@[simp] theorem State.setInbox_inbox_same (s : State) (f : Port) (r : List Frame) : (s.setInbox f r).inbox f = r := sel_put_same ..
theorem State.setInbox_inbox (s : State) (f : Port) (r : List Frame) (g : Port) :
    (s.setInbox f r).inbox g = if g = f then r else s.inbox g := sel_put ..
@[simp] theorem State.setInbox_inbox_of_ne (s : State) (f : Port) (r : List Frame) (g : Port) (h : g ≠ f) :
    (s.setInbox f r).inbox g = s.inbox g := sel_put_of_ne _ _ _ _ h
@[simp] theorem State.setWindow_window_same (s : State) (f : Port) (r : WindowUnit) : (s.setWindow f r).window f = r := sel_put_same ..
theorem State.setWindow_window (s : State) (f : Port) (r : WindowUnit) (g : Port) :
    (s.setWindow f r).window g = if g = f then r else s.window g := sel_put ..
@[simp] theorem State.setWindow_window_of_ne (s : State) (f : Port) (r : WindowUnit) (g : Port) (h : g ≠ f) :
    (s.setWindow f r).window g = s.window g := sel_put_of_ne _ _ _ _ h
@[simp] theorem State.setRing_ring_same (s : State) (f : Port) (r : Ring) : (s.setRing f r).ring f = r := sel_put_same ..
theorem State.setRing_ring (s : State) (f : Port) (r : Ring) (g : Port) :
    (s.setRing f r).ring g = if g = f then r else s.ring g := sel_put ..
@[simp] theorem State.setRing_ring_of_ne (s : State) (f : Port) (r : Ring) (g : Port) (h : g ≠ f) :
    (s.setRing f r).ring g = s.ring g := sel_put_of_ne _ _ _ _ h
@[simp] theorem State.setQueue_queue_same (s : State) (f : Port) (r : EventPort) : (s.setQueue f r).queue f = r := sel_put_same ..
theorem State.setQueue_queue (s : State) (f : Port) (r : EventPort) (g : Port) :
    (s.setQueue f r).queue g = if g = f then r else s.queue g := sel_put ..
@[simp] theorem State.setQueue_queue_of_ne (s : State) (f : Port) (r : EventPort) (g : Port) (h : g ≠ f) :
    (s.setQueue f r).queue g = s.queue g := sel_put_of_ne _ _ _ _ h
@[simp] theorem State.setCommand_command_same (s : State) (f : Port) (r : CommandBlock) : (s.setCommand f r).command f = r := sel_put_same ..
theorem State.setCommand_command (s : State) (f : Port) (r : CommandBlock) (g : Port) :
    (s.setCommand f r).command g = if g = f then r else s.command g := sel_put ..
@[simp] theorem State.setCommand_command_of_ne (s : State) (f : Port) (r : CommandBlock) (g : Port) (h : g ≠ f) :
    (s.setCommand f r).command g = s.command g := sel_put_of_ne _ _ _ _ h
@[simp] theorem State.setSession_session_same (s : State) (f : Port) (r : SessionRecord) : (s.setSession f r).session f = r := sel_put_same ..
theorem State.setSession_session (s : State) (f : Port) (r : SessionRecord) (g : Port) :
    (s.setSession f r).session g = if g = f then r else s.session g := sel_put ..
@[simp] theorem State.setSession_session_of_ne (s : State) (f : Port) (r : SessionRecord) (g : Port) (h : g ≠ f) :
    (s.setSession f r).session g = s.session g := sel_put_of_ne _ _ _ _ h
@[simp] theorem State.setFrames_frame (s : State) (v : Vector FrameRecord 64) (g : Frame) :
    (s.setFrames v).frame g = sel v g := rfl
theorem State.setClosingTaken_dirUp (s : State) (p q : Port) (b : Bool) :
    (s.setClosingTaken p b).dirUp q = if q = p then !b else s.dirUp q := by
  simp only [State.dirUp, State.setClosingTaken_closingTaken, sel_put]; split <;> rfl
@[simp] theorem State.setArbiter_holds (s : State) (a : Arbiter) (c : Claimant) :
    (s.setArbiter a).holds c = (a.array == .held c) := rfl

end Sys2Proof.Machine
end

