-- ==== Sys2Proof/Laws/Commands.lean ====
section
/-! SUPPORT. What the taking of a pending command can do: the command is answered, discarded, or not there to be taken. -/

namespace Sys2Proof.Machine

theorem State.isUp_iff {s : State} {p : Port} : s.isUp p = true ↔ (s.session p).state = .up := by
  simp [State.isUp]

/-- Everything the taking of a pending command can do (R154, R160). -/
theorem State.takeCommand_cases (s : State) (p : Port) (owns : Byte → Bool) (body : State → Port → Args → State × Reply) :
    (s.takeCommand p owns body = s ∧ ∀ k, (s.command p).pendingCmd = some k → owns k.code = false) ∨
      (∃ k, (s.command p).pendingCmd = some k ∧ owns k.code = true ∧ s.isUp p = true ∧
        s.takeCommand p owns body = (body s p k.args).1.answer p (body s p k.args).2) ∨
      ∃ k, (s.command p).pendingCmd = some k ∧ owns k.code = true ∧ s.isUp p = false ∧
        s.takeCommand p owns body = s.discard p := by
  cases hk : (s.command p).pendingCmd with
  | none => simp [State.takeCommand, hk]
  | some k =>
    cases ho : owns k.code with
    | false => simp [State.takeCommand, hk, ho]
    | true => cases hup : s.isUp p <;> simp [State.takeCommand, hk, ho, hup]

/-- A command that is there to be taken is answered by its block. -/
theorem State.takeCommand_ready {s : State} {p : Port} {code : Byte} {a : Args} {k : Bool} (h : s.Ready p code a k)
    {owns : Byte → Bool} (ho : owns code = true) (body : State → Port → Args → State × Reply) :
    s.takeCommand p owns body = (body s p a).1.answer p (body s p a).2 := by
  obtain ⟨-, hup, hk⟩ := h
  simp [State.takeCommand, hk, ho, State.isUp_iff.mpr hup]

/-- The answer writes the issuing port's command block and nothing else (R154, R156). -/
theorem State.answer_eq {s t : State} {p : Port} {code : Byte} {a : Args} {k : Bool} (ht : t.commands = s.commands)
    (hk : (s.command p).pendingCmd = some ⟨code, a, k⟩) (r : Reply) :
    t.answer p r = { t with commands := (s.replied p k r.code r.res0 r.res1 r.res2 r.res3).commands } := by
  have hc : t.command p = s.command p := by simp [State.command, ht]
  simp [State.answer, State.replied, State.setCommand, hc, hk, ht]

/-- A discarded command leaves CLOSING and four zero words (R160). -/
theorem State.discard_eq {s : State} {p : Port} {c : PendingCommand} (hk : (s.command p).pendingCmd = some c) :
    s.discard p = s.setCommand p { s.command p with
      pendingCmd := none, result := .closing, res0 := 0, res1 := 0, res2 := 0, res3 := 0 } := by
  simp [State.discard, hk]

theorem State.discard_none {s : State} {p : Port} (hk : (s.command p).pendingCmd = none) : s.discard p = s := by
  simp [State.discard, hk]

theorem whileRunning_high {s : State} (h : s.rstLow = false) (act : State → State) :
    whileRunning s act = .next (act s) := by simp [whileRunning, h]

theorem whileRunning_low {s : State} (h : s.rstLow = true) (act : State → State) : whileRunning s act = .next s := by
  simp [whileRunning, h]

/-- A command that is there to be taken runs its block's body: the state the body gives, with the body's reply in the
command block. -/
theorem takeCommand_replies {s : State} {p : Port} {code : Byte} {a : Args} {k : Bool} (h : s.Ready p code a k)
    {owns : Byte → Bool} (ho : owns code = true) {body : State → Port → Args → State × Reply} {t : State} {r : Reply}
    (hb : body s p a = (t, r)) (ht : t.commands = s.commands) :
    whileRunning s (fun s => s.takeCommand p owns body) =
      .next { t with commands := (s.replied p k r.code r.res0 r.res1 r.res2 r.res3).commands } := by
  rw [whileRunning_high h.1, State.takeCommand_ready h ho, hb, State.answer_eq ht h.2.2]

/-! ## Parts that answering and discarding leave as they are -/

@[simp] theorem State.answer_frames (s : State) (p : Port) (r : Reply) : (s.answer p r).frames = s.frames := rfl
@[simp] theorem State.answer_mem (s : State) (p : Port) (r : Reply) : (s.answer p r).mem = s.mem := rfl
@[simp] theorem State.answer_inboxes (s : State) (p : Port) (r : Reply) : (s.answer p r).inboxes = s.inboxes := rfl
@[simp] theorem State.answer_closingTaken (s : State) (p : Port) (r : Reply) :
    (s.answer p r).closingTaken = s.closingTaken := rfl
@[simp] theorem State.answer_dirMail (s : State) (p : Port) (r : Reply) : (s.answer p r).dirMail = s.dirMail := rfl
@[simp] theorem State.answer_scrub (s : State) (p : Port) (r : Reply) : (s.answer p r).scrub = s.scrub := rfl
@[simp] theorem State.answer_windows (s : State) (p : Port) (r : Reply) : (s.answer p r).windows = s.windows := rfl
@[simp] theorem State.answer_copy (s : State) (p : Port) (r : Reply) : (s.answer p r).copy = s.copy := rfl
@[simp] theorem State.answer_queues (s : State) (p : Port) (r : Reply) : (s.answer p r).queues = s.queues := rfl
@[simp] theorem State.answer_handovers (s : State) (p : Port) (r : Reply) : (s.answer p r).handovers = s.handovers := rfl
@[simp] theorem State.answer_sessions (s : State) (p : Port) (r : Reply) : (s.answer p r).sessions = s.sessions := rfl
@[simp] theorem State.answer_arbiter (s : State) (p : Port) (r : Reply) : (s.answer p r).arbiter = s.arbiter := rfl
@[simp] theorem State.answer_pending (s : State) (p : Port) (r : Reply) : (s.answer p r).pending = s.pending := rfl

/-- Discarding changes the command block alone. -/
theorem State.discard_rest (s : State) (p : Port) : ∃ v, s.discard p = { s with commands := v } := by
  unfold State.discard
  simp only
  split
  · exact ⟨_, rfl⟩
  · exact ⟨s.commands, rfl⟩

/-! ## Events handed over -/

theorem State.handOver_eq (s : State) (source : Producer) (events : List (Port × EventRecord)) :
    s.handOver source events = s.withEvents source events := by
  cases events <;> simp [State.handOver, State.withEvents, State.setHandovers]

/-- Handing events over changes what is on its way to the Event Unit alone. -/
theorem State.handOver_rest (s : State) (source : Producer) (events : List (Port × EventRecord)) :
    ∃ l, s.handOver source events = s.setHandovers l := by
  unfold State.handOver
  split
  · exact ⟨s.handovers, rfl⟩
  · exact ⟨_, rfl⟩

end Sys2Proof.Machine
end

