-- ==== Sys2Proof/Laws/Operands.lean ====
section
/-! SUPPORT. What each operand form gives, as the statements say it: a number in range, or none; and the tests that the
meanings make on the state, as propositions. -/

namespace Sys2Proof.Machine

/-! ## Arguments (R10) -/

theorem frameArg_of_val {w : Word} {f : Frame} (h : w.toNat = f.val) : frameArg w = some f := by
  have := f.isLt
  simp [frameArg, h]

theorem frameArg_out {w : Word} (h : 64 ≤ w.toNat) : frameArg w = none := by
  simp [frameArg]
  omega

theorem portArg_of_val {w : Word} {p : Port} (h : w.toNat = p.val) : portArg w = some p := by
  have := p.isLt
  simp [portArg, h]

theorem portArg_out {w : Word} (h : 4 ≤ w.toNat) : portArg w = none := by
  simp [portArg]
  omega

theorem profileArg_of_val {w : Word} {n : Fin 4} (h : w.toNat = n.val) : profileArg w = some n := by
  have := n.isLt
  simp [profileArg, h]

theorem profileArg_out {w : Word} (h : 4 ≤ w.toNat) : profileArg w = none := by
  simp [profileArg]
  omega

theorem slotArg_of_val {w : Word} {n : Fin 16} (h : w.toNat = n.val) : slotArg w = some n := by
  have := n.isLt
  simp [slotArg, h]

theorem slotArg_out {w : Word} (h : 16 ≤ w.toNat) : slotArg w = none := by
  simp [slotArg]
  omega

/-- A word is a number below 65 536 exactly when its value is that number. -/
theorem word_eq_ofNat {w : Word} {n : Nat} (hn : n < 65536) : w = BitVec.ofNat 16 n ↔ w.toNat = n := by
  constructor
  · rintro rfl
    simp
    omega
  · intro h
    apply BitVec.eq_of_toNat_eq
    simp [h]
    omega

theorem word_eq_zero {w : Word} : w = 0#16 ↔ w.toNat = 0 := word_eq_ofNat (n := 0) (by omega)

theorem word_eq_one {w : Word} : w = 1#16 ↔ w.toNat = 1 := word_eq_ofNat (n := 1) (by omega)

theorem flagArg_of_toNat {w : Word} {b : Bool} (h : w.toNat = b.toNat) : flagArg w = some b := by
  cases b <;> simp_all [flagArg, word_eq_zero, word_eq_one]

theorem flagArg_out {w : Word} (h : 2 ≤ w.toNat) : flagArg w = none := by
  have h0 : w ≠ 0#16 := fun e => by rw [word_eq_zero] at e; omega
  have h1 : w ≠ 1#16 := fun e => by rw [word_eq_one] at e; omega
  simp [flagArg, h0, h1]

theorem classArg_of_toNat {w : Word} {c : OfferClass} (h : w.toNat = c.code.toNat) : classArg w = some c := by
  cases c <;> simp_all [classArg, OfferClass.code, word_eq_zero, word_eq_one]

theorem classArg_out {w : Word} (h : 2 ≤ w.toNat) : classArg w = none := by
  have h0 : w ≠ 0#16 := fun e => by rw [word_eq_zero] at e; omega
  have h1 : w ≠ 1#16 := fun e => by rw [word_eq_one] at e; omega
  simp [classArg, h0, h1]

theorem accessArg_of_toNat {w : Word} {b : Bool} (h : w.toNat = b.toNat) :
    accessArg w = some (if b then .rw else .ro) := by
  cases b <;> simp_all [accessArg, word_eq_zero, word_eq_one]

theorem accessArg_out {w : Word} (h : 2 ≤ w.toNat) : accessArg w = none := by
  have h0 : w ≠ 0#16 := fun e => by rw [word_eq_zero] at e; omega
  have h1 : w ≠ 1#16 := fun e => by rw [word_eq_one] at e; omega
  simp [accessArg, h0, h1]

theorem fallbackArg_none : fallbackArg 0x00FF = some none := rfl

theorem fallbackArg_of_val {w : Word} {p : Port} (h : w.toNat = p.val) : fallbackArg w = some (some p) := by
  have hp := p.isLt
  have hne : w ≠ 0x00FF#16 := fun e => by
    rw [word_eq_ofNat (n := 0xFF) (by omega)] at e
    omega
  simp [fallbackArg, hne, portArg_of_val h]

theorem fallbackArg_out {w : Word} (h : 4 ≤ w.toNat) (hne : w ≠ 0x00FF) : fallbackArg w = none := by
  have hne' : w ≠ 0x00FF#16 := hne
  simp [fallbackArg, hne', portArg_out h]

theorem indexArg_in {w : Word} (h : w.toNat < 8) : indexArg w = some w.toNat := by simp [indexArg, h]

theorem indexArg_out {w : Word} (h : 8 ≤ w.toNat) : indexArg w = none := by
  simp [indexArg]
  omega

/-- The offset and size of a ring (R102). -/
theorem ringFits_iff {offset size : Nat} :
    ringFits offset size = true ↔ size ∈ [4, 8, 16, 32, 64, 128] ∧ offset % 32 = 0 ∧ offset + size * 32 ≤ 4096 := by
  unfold ringFits
  rw [Bool.and_eq_true, Bool.and_eq_true, decide_eq_true_iff, decide_eq_true_iff, List.contains_iff_mem, and_assoc]
  rfl

/-- The address of a word, from the address lines (R185). -/
theorem byteAddr_eq (a : BitVec 15) : byteAddr a = BitVec.ofNat 16 (2 * a.toNat) := by
  apply BitVec.eq_of_toNat_eq
  have := a.isLt
  simp only [byteAddr, BitVec.toNat_append, BitVec.toNat_ofNat]
  simp [Nat.shiftLeft_eq]
  omega

/-- The low byte of a word made of two bytes. -/
theorem append_lowByte (hi lo : Byte) : (hi ++ lo : Word).extractLsb' 0 8 = lo := by
  apply BitVec.eq_of_getLsbD_eq
  intro i h
  rw [BitVec.getLsbD_extractLsb']
  erw [BitVec.getLsbD_append]
  simp [h]

/-- The high byte of a word made of two bytes. -/
theorem append_highByte (hi lo : Byte) : (hi ++ lo : Word).extractLsb' 8 8 = hi := by
  apply BitVec.eq_of_getLsbD_eq
  intro i h
  rw [BitVec.getLsbD_extractLsb']
  erw [BitVec.getLsbD_append]
  simp [h]

/-- The bytes of a word with some lanes replaced (R165). -/
theorem mergeLanes_bytes (old new : Word) (lo hi : Bool) :
    (mergeLanes old new lo hi).extractLsb' 0 8 = (if lo then new else old).extractLsb' 0 8 ∧
      (mergeLanes old new lo hi).extractLsb' 8 8 = (if hi then new else old).extractLsb' 8 8 := by
  unfold mergeLanes
  rw [append_lowByte, append_highByte]
  constructor <;> split <;> rfl

/-- The low byte of a frame number as a word (R202). -/
theorem lowByte_frameField (f : Frame) : lowByte (frameField (some f)) = BitVec.ofNat 16 f.val := by
  have := f.isLt
  apply BitVec.eq_of_toNat_eq
  simp [lowByte, frameField]
  omega

/-- A count that stops at 65 535. -/
theorem saturatingNext_eq (n : Word) : saturatingNext n = if n.toNat = 65535 then n else n + 1 := by
  have : n = 0xFFFF#16 ↔ n.toNat = 65535 := word_eq_ofNat (n := 65535) (by omega)
  simp [saturatingNext, this]

/-! ## Tests on the state -/

theorem State.isUp_false_iff {s : State} {p : Port} : s.isUp p = false ↔ (s.session p).state ≠ .up := by
  rw [← Bool.not_eq_true, State.isUp_iff]

theorem State.quotaFull_iff {s : State} {p : Port} : s.quotaFull p = true ↔ s.AtQuota p := by
  simp only [State.quotaFull, Bool.and_eq_true, decide_eq_true_iff]
  rfl

theorem State.quotaFull_false_iff {s : State} {p : Port} : s.quotaFull p = false ↔ ¬s.AtQuota p := by
  rw [← State.quotaFull_iff, Bool.not_eq_true]

theorem State.isRingFrame_iff {s : State} {p : Port} {f : Frame} :
    s.isRingFrame p f = true ↔ (s.ring p).state ≠ .unset ∧ ∃ c, (s.ring p).config = some c ∧ c.frame = f := by
  simp [State.isRingFrame]

theorem EngineState.place?_port (e : EngineState) : e.place?.map JobPlace.port = e.port? := by cases e <;> rfl

theorem State.jobCurrent_iff {s : State} {p : Port} :
    s.jobCurrent p = true ↔ ∃ j, s.copy.engine.place? = some j ∧ j.port = p := by
  simp only [State.jobCurrent, ← EngineState.place?_port]
  simp

theorem State.fetchInProgress_iff {s : State} {p : Port} :
    s.fetchInProgress p = true ↔ ∃ j, s.copy.engine = .fetching j ∧ j.port = p := by
  simp only [State.fetchInProgress]
  split <;> simp_all

/-- The port takes a cycle exactly where the first three rows of R186 let it. -/
theorem State.cycleTaken_iff {s : State} {p : Port} : s.cycleTaken p = true ↔ s.Taken p := by
  simp [State.cycleTaken, State.Taken, State.rdyHigh, and_assoc]
  tauto

theorem EventPort.accepts_iff {q : EventPort} : q.accepts = true ↔ q.overflow = none ∧ q.ordinary.length ≤ 30 := by
  simp [EventPort.accepts, Config.queueSize, Nat.lt_succ_iff]

/-- The window check reads the sessions, the port's active profile and the frame table (R86). -/
theorem State.checkAccess_congr {s t : State} {p : Port} (hs : t.sessions = s.sessions)
    (hp : (t.window p).profiles = (s.window p).profiles) (ha : (t.window p).active = (s.window p).active)
    (hf : t.frames = s.frames) (a : BitVec 15) (dir : Direction) : t.checkAccess p a dir = s.checkAccess p a dir := by
  unfold State.checkAccess State.isUp State.session State.frame WindowUnit.entry
  rw [hs, hp, ha, hf]

end Sys2Proof.Machine
end

