-- ==== Sys2Proof/Laws/Bus.lean ====
section
/-! SUPPORT. What the edges of a port's strobes can do: each cycle by the levels at its falling edge. -/

namespace Sys2Proof.Machine

theorem busAccess_window : busAccess windowLevels = .window := rfl
theorem busAccess_control : busAccess controlLevels = .control := rfl

/-- The rows of R186 that test the selects and the other strobe. -/
theorem busAccess_untaken {b : BusLevels} (h : b.otherLow = true ∨ b.wselLow = b.cselLow) : busAccess b = .untaken := by
  obtain ⟨wsel, csel, other⟩ := b
  revert wsel csel other
  decide

theorem State.releaseLines_eq (s : State) (p : Port) : s.releaseLines p = s.linesReleased p := rfl

@[simp] theorem State.releaseLines_rstLow (s : State) (p : Port) : (s.releaseLines p).rstLow = s.rstLow := rfl
@[simp] theorem State.releaseLines_session (s : State) (p q : Port) : (s.releaseLines p).session q = s.session q := rfl
@[simp] theorem State.releaseLines_command (s : State) (p q : Port) : (s.releaseLines p).command q = s.command q := rfl
@[simp] theorem State.releaseLines_queue (s : State) (p q : Port) : (s.releaseLines p).queue q = s.queue q := rfl
@[simp] theorem State.releaseLines_window (s : State) (p : Port) :
    (s.releaseLines p).window p = { s.window p with dataOut := none } := by
  simp [State.releaseLines, State.window, State.setWindow]

/-- Releasing the lines leaves the port's bus as ready for a cycle as it was. -/
theorem State.releaseLines_taken (s : State) (p : Port) : (s.releaseLines p).Taken p ↔ s.Taken p := by
  simp [State.Taken]

/-- What a register reads does not depend on the lines. -/
theorem State.releaseLines_registerRead (s : State) (p : Port) (offset : Nat) :
    (s.releaseLines p).registerRead p offset = s.registerRead p offset := by
  simp only [State.registerRead, State.id1, State.statusWord, State.shownFault, State.shownProfile, State.isClosing,
    State.releaseLines_session, State.releaseLines_command, State.releaseLines_queue, State.releaseLines_window]
  rfl

/-- The answer to a falling edge, by the whole table of R186. -/
theorem State.busCycle_eq (s : State) (p : Port) (b : BusLevels) (window control : State → State) :
    (s.Taken p → b = windowLevels → s.busCycle p b window control = window s) ∧
      (s.Taken p → b = controlLevels → s.busCycle p b window control = control s) ∧
      (¬s.Taken p ∨ b.otherLow = true ∨ b.wselLow = b.cselLow → s.busCycle p b window control = s) := by
  refine ⟨fun h hb => ?_, fun h hb => ?_, fun h => ?_⟩
  · rw [State.busCycle, if_pos (State.cycleTaken_iff.mpr h), hb, busAccess_window]
  · rw [State.busCycle, if_pos (State.cycleTaken_iff.mpr h), hb, busAccess_control]
  · unfold State.busCycle
    split
    · rename_i ht
      rw [busAccess_untaken (h.resolve_left fun n => n (State.cycleTaken_iff.mp ht))]
    · rfl

/-- A falling edge of RD#: a window read's cycle, a control read, or only the release of the lines. -/
theorem State.readEdge_eq (s : State) (p : Port) (a : BitVec 15) :
    (s.Taken p → s.readEdge p a windowLevels = (s.releaseLines p).readCycle p a) ∧
      (s.Taken p → s.readEdge p a controlLevels = s.setWindow p { s.window p with
        dataOut := some (s.registerRead p (controlOffset a)) }) ∧
      ∀ b : BusLevels, ¬s.Taken p ∨ b.otherLow = true ∨ b.wselLow = b.cselLow → s.readEdge p a b = s.releaseLines p := by
  refine ⟨fun h => ?_, fun h => ?_, fun b h => ?_⟩
  · exact (State.busCycle_eq _ p _ _ _).1 ((s.releaseLines_taken p).mpr h) rfl
  · refine ((State.busCycle_eq _ p _ _ _).2.1 ((s.releaseLines_taken p).mpr h) rfl).trans ?_
    simp only [State.controlRead, State.releaseLines_registerRead, State.releaseLines_window]
    simp [State.releaseLines, State.setWindow]
  · exact (State.busCycle_eq _ p _ _ _).2.2 (h.imp_left fun n x => n ((s.releaseLines_taken p).mp x))

/-- A falling edge of WR#: a window write's cycle, a control write, or only the release of the lines where RD# is high. -/
theorem State.writeEdge_eq (s : State) (p : Port) (a : BitVec 15) (v : Word) (l : Lanes) :
    (s.Taken p → s.writeEdge p a v l windowLevels = (s.releaseLines p).writeCycle p a v l.lo l.hi) ∧
      (s.Taken p → s.writeEdge p a v l controlLevels =
        (s.releaseLines p).registerWrite p (controlOffset a) v l.lo l.hi) ∧
      ∀ b : BusLevels, ¬s.Taken p ∨ b.otherLow = true ∨ b.wselLow = b.cselLow →
        s.writeEdge p a v l b = s.releasedUnless p b.otherLow := by
  refine ⟨fun h => ?_, fun h => ?_, fun b h => ?_⟩
  · exact (State.busCycle_eq _ p _ _ _).1 ((s.releaseLines_taken p).mpr h) rfl
  · exact (State.busCycle_eq _ p _ _ _).2.1 ((s.releaseLines_taken p).mpr h) rfl
  · refine (State.busCycle_eq _ p _ _ _).2.2 (h.imp_left fun n x => n ?_)
    cases ho : b.otherLow <;> rw [State.releasedUnless, ho] at x
    · exact (s.releaseLines_taken p).mp x
    · exact x

/-- A write of one register: taken with CSEL# alone low and RD# high, else only the release of the lines where RD# is
high. -/
theorem State.controlEdge_eq (s : State) (p : Port) (write : State → State) :
    (s.Taken p → s.controlEdge p cselAlone write = write (s.releaseLines p)) ∧
      ∀ levels : ControlLevels, ¬s.Taken p ∨ levels.rdLow = true ∨ levels.wselLow = true →
        s.controlEdge p levels write = s.releasedUnless p levels.rdLow := by
  refine ⟨fun h => ?_, fun ⟨wselLow, rdLow⟩ h => ?_⟩
  · exact (State.busCycle_eq _ p _ _ _).2.1 ((s.releaseLines_taken p).mpr h) rfl
  · refine (State.busCycle_eq _ p _ _ _).2.2 (h.imp_left fun n x => n ?_)
    cases rdLow
    · exact (s.releaseLines_taken p).mp x
    · exact x

end Sys2Proof.Machine
end

