-- ==== Sys2Proof/Laws/Memory.lean ====
section
/-! SUPPORT. The array: a byte written is read back, every other byte is as before, and every operation keeps the one
canonical form of the list. -/

namespace Sys2Proof.Machine

open Memory

/-! ## The canonical form -/

theorem Memory.canonicalAbove_cons {low a : Nat} {b : Byte} {rest : Memory} :
    canonicalAbove low ((a, b) :: rest) = true ↔
      low ≤ a ∧ a < Config.arrayBytes ∧ b ≠ unlisted ∧ canonicalAbove (a + 1) rest = true := by
  simp [canonicalAbove, and_assoc]

theorem Memory.canonicalAbove_mono {m : Memory} {low low' : Nat} (h : canonicalAbove low' m = true) (hle : low ≤ low') :
    canonicalAbove low m = true := by
  cases m with
  | nil => rfl
  | cons c rest =>
    obtain ⟨a, b⟩ := c
    rw [canonicalAbove_cons] at h ⊢
    exact ⟨hle.trans h.1, h.2⟩

/-- Below the first address a canonical list reads as unlisted. -/
theorem Memory.read_of_lt {m : Memory} {low x : Nat} (h : canonicalAbove low m = true) (hx : x < low) :
    read m x = unlisted := by
  cases m with
  | nil => rfl
  | cons c rest =>
    obtain ⟨a, b⟩ := c
    rw [canonicalAbove_cons] at h
    simp only [read]
    rw [if_neg (by omega), if_pos (by omega)]

/-- No byte outside the array is listed. -/
theorem Memory.read_outside {m : Memory} {low x : Nat} (h : canonicalAbove low m = true)
    (hx : Config.arrayBytes ≤ x) : read m x = unlisted := by
  induction m generalizing low with
  | nil => rfl
  | cons c rest ih =>
    obtain ⟨a, b⟩ := c
    rw [canonicalAbove_cons] at h
    simp only [read]
    rw [if_neg (by omega), if_neg (by omega)]
    exact ih h.2.2.2

theorem Memory.insert_canonicalAbove {m : Memory} {low x : Nat} {v : Byte} (h : canonicalAbove low m = true)
    (hlow : low ≤ x) (hx : x < Config.arrayBytes) : canonicalAbove low (insert m x v) = true := by
  induction m generalizing low with
  | nil => simp only [insert]; split <;> simp_all [canonicalAbove]
  | cons c rest ih =>
    obtain ⟨a, b⟩ := c
    rw [canonicalAbove_cons] at h
    obtain ⟨ha, hin, hb, hrest⟩ := h
    simp only [insert]
    split
    · split
      · exact canonicalAbove_mono hrest (by omega)
      · rw [canonicalAbove_cons]; exact ⟨hlow, hx, ‹_›, canonicalAbove_mono hrest (by omega)⟩
    · split
      · split
        · rw [canonicalAbove_cons]; exact ⟨ha, hin, hb, hrest⟩
        · rw [canonicalAbove_cons, canonicalAbove_cons]
          exact ⟨hlow, hx, ‹_›, by omega, hin, hb, hrest⟩
      · rw [canonicalAbove_cons]
        exact ⟨ha, hin, hb, ih hrest (by omega)⟩

theorem Memory.read_insert {m : Memory} {low x y : Nat} {v : Byte} (h : canonicalAbove low m = true) :
    read (insert m x v) y = if y = x then v else read m y := by
  induction m generalizing low with
  | nil =>
    simp only [insert, read]
    by_cases hv : v = unlisted <;> by_cases hy : y = x <;> by_cases hl : y < x <;> simp_all [read]
  | cons c rest ih =>
    obtain ⟨a, b⟩ := c
    rw [canonicalAbove_cons] at h
    obtain ⟨-, -, -, hrest⟩ := h
    have below : y ≤ a → read rest y = unlisted := fun hy => read_of_lt hrest (by omega)
    simp only [insert]
    split
    · subst_vars
      split
      · subst_vars
        by_cases hy : y = a
        · simp [hy, read_of_lt hrest (Nat.lt_succ_self a)]
        · by_cases hl : y < a
          · simp [read, hy, hl, below (by omega)]
          · simp [read, hy, hl]
      · simp only [read]; split <;> simp_all
    · rename_i hxa
      split
      · rename_i hlt
        split
        · subst_vars
          by_cases hy : y = x
          · subst hy; simp [read, hxa, hlt]
          · simp [hy]
        · by_cases hy : y = x
          · simp [read, hy]
          · by_cases hl : y < x
            · simp [read, hy, hl, show y ≠ a by omega, show y < a by omega]
            · simp [read, hy, hl]
      · rename_i hlt
        by_cases hya : y = a
        · subst hya; simp only [read, if_true]; rw [if_neg fun h => hxa h.symm]
        · by_cases hl : y < a
          · simp [read, hya, hl, show y ≠ x by omega]
          · simp only [read, hya, hl, if_false]; exact ih hrest

/-! ## One byte -/

theorem Memory.write_wf {m : Memory} {x : Nat} {v : Byte} (h : m.wf = true) : (write m x v).wf = true := by
  simp only [write]
  split
  · exact insert_canonicalAbove h (Nat.zero_le _) ‹_›
  · exact h

theorem Memory.read_write {m : Memory} {x y : Nat} {v : Byte} (h : m.wf = true) (hx : x < Config.arrayBytes) :
    read (write m x v) y = if y = x then v else read m y := by
  simp only [write, hx, if_true]; exact read_insert h

theorem Memory.read_write_same {m : Memory} {x : Nat} {v : Byte} (h : m.wf = true) (hx : x < Config.arrayBytes) :
    read (write m x v) x = v := by simp [read_write h hx]

theorem Memory.read_write_of_ne {m : Memory} {x y : Nat} {v : Byte} (h : m.wf = true) (hy : y ≠ x) :
    read (write m x v) y = read m y := by
  simp only [write]
  split
  · rw [read_insert h, if_neg hy]
  · rfl

/-! ## Runs of bytes -/

theorem Memory.writeBytes_wf {m : Memory} {a : Nat} {bs : List Byte} (h : m.wf = true) :
    (writeBytes m a bs).wf = true := by
  induction bs generalizing m a with
  | nil => exact h
  | cons b bs ih => exact ih (write_wf h)

/-- A run of bytes changes those at its own addresses and no others. -/
theorem Memory.read_writeBytes {m : Memory} {a y : Nat} {bs : List Byte} (h : m.wf = true)
    (hin : a + bs.length ≤ Config.arrayBytes) :
    read (writeBytes m a bs) y = if hy : a ≤ y ∧ y < a + bs.length then bs[y - a]'(by omega) else read m y := by
  induction bs generalizing m a with
  | nil => simp [writeBytes, show ¬(a ≤ y ∧ y < a) by omega]
  | cons b bs ih =>
    simp only [List.length_cons] at hin ⊢
    rw [writeBytes, ih (write_wf h) (by omega)]
    by_cases hy : y = a
    · subst hy
      simp [read_write_same h (show y < Config.arrayBytes by omega), show ¬(y + 1 ≤ y) by omega]
    · rw [read_write_of_ne h hy]
      by_cases hr : a + 1 ≤ y ∧ y < a + 1 + bs.length
      · rw [dif_pos hr, dif_pos (by omega)]
        rw [List.getElem_cons, dif_neg (by omega)]
        congr 1
      · rw [dif_neg hr, dif_neg (by omega)]

theorem Memory.writeBytes_other {m : Memory} {a y : Nat} {bs : List Byte} (h : m.wf = true)
    (hy : y < a ∨ a + bs.length ≤ y) : read (writeBytes m a bs) y = read m y := by
  induction bs generalizing m a with
  | nil => rfl
  | cons b bs ih =>
    simp only [List.length_cons] at hy
    rw [writeBytes, ih (write_wf h) (by omega), read_write_of_ne h (by omega)]

theorem Memory.copyBytes_wf {m : Memory} {x y n : Nat} (h : m.wf = true) : (copyBytes m x y n).wf = true := by
  induction n generalizing m x y with
  | zero => exact h
  | succ n ih => exact ih (write_wf h)

theorem Memory.copyBytes_other {m : Memory} {x d y n : Nat} (h : m.wf = true) (hy : y < d ∨ d + n ≤ y) :
    read (copyBytes m x d n) y = read m y := by
  induction n generalizing m x d with
  | zero => rfl
  | succ n ih => rw [copyBytes, ih (write_wf h) (by omega), read_write_of_ne h (by omega)]

/-- Each byte that a copy writes is its source byte as it stands at that point: as it was, or as the copy itself has
already written it (R116). -/
theorem Memory.read_copyBytes {m : Memory} {x d n i : Nat} (h : m.wf = true) (hd : d + n ≤ Config.arrayBytes)
    (hi : i < n) :
    read (copyBytes m x d n) (d + i) =
      if x < d ∧ d ≤ x + i then read (copyBytes m x d n) (x + i) else read m (x + i) := by
  induction n generalizing m x d i with
  | zero => omega
  | succ n ih =>
    have hw := write_wf (x := d) (v := read m x) h
    have hfirst : read (copyBytes (write m d (read m x)) (x + 1) (d + 1) n) d = read m x := by
      rw [copyBytes_other hw (by omega), read_write_same h (by omega)]
    rw [copyBytes]
    cases i with
    | zero =>
      rw [if_neg (by omega), Nat.add_zero, Nat.add_zero]
      exact hfirst
    | succ i =>
      rw [show d + (i + 1) = d + 1 + i by omega, show x + (i + 1) = x + 1 + i by omega, ih hw (by omega) (by omega)]
      split_ifs
      · rfl
      · omega
      · rw [show x + 1 + i = d by omega, hfirst, read_write_same h (by omega)]
      · exact read_write_of_ne h (by omega)

theorem Memory.writeSome_wf {done : Nat → Bool} {i : Nat} {m : Memory} {a : Nat} {bs : List Byte} (h : m.wf = true) :
    (writeSome done i m a bs).wf = true := by
  induction bs generalizing m a i with
  | nil => exact h
  | cons b bs ih =>
    rw [writeSome]
    split
    · exact ih (write_wf h)
    · exact ih h

theorem Memory.writeLanes_wf {m : Memory} {w : HeldWrite} (h : m.wf = true) : (writeLanes m w).wf = true := by
  simp only [writeLanes]
  split <;> split <;> first | exact write_wf (write_wf h) | exact write_wf h | exact h

@[simp] theorem Memory.readBytes_length (m : Memory) (a n : Nat) : (readBytes m a n).length = n := by
  induction n generalizing a with
  | zero => rfl
  | succ n ih => simp [readBytes, ih]

/-! ## Addresses -/

theorem arrayAddr_lt (f : Frame) {offset : Nat} (h : offset < Config.frameBytes) :
    arrayAddr f offset < Config.arrayBytes := by
  have := f.isLt
  simp only [arrayAddr, Config.frameBytes, Config.arrayBytes] at *
  omega

/-- Two frames share no byte. -/
theorem arrayAddr_inj {f g : Frame} {x y : Nat} (hx : x < Config.frameBytes) (hy : y < Config.frameBytes)
    (h : arrayAddr f x = arrayAddr g y) : f = g ∧ x = y := by
  simp only [arrayAddr, Config.frameBytes] at *
  exact ⟨Fin.ext (by omega), by omega⟩

theorem WordPlace.addr_lt (w : WordPlace) : w.addr < Config.arrayBytes :=
  arrayAddr_lt w.frame (by simpa [Config.frameBytes] using w.offset.isLt)

/-- Canonical lists that read alike are equal: the list is the array's contents and nothing more. -/
theorem Memory.eq_of_read_eq {m m' : Memory} {low : Nat} (h : canonicalAbove low m = true)
    (h' : canonicalAbove low m' = true) (hr : ∀ x, read m x = read m' x) : m = m' := by
  induction m generalizing m' low with
  | nil =>
    cases m' with
    | nil => rfl
    | cons c rest =>
      obtain ⟨a, b⟩ := c
      rw [canonicalAbove_cons] at h'
      have := hr a
      simp [read] at this
      exact absurd this.symm h'.2.2.1
  | cons c rest ih =>
    obtain ⟨a, b⟩ := c
    have hc := h
    rw [canonicalAbove_cons] at h
    cases m' with
    | nil =>
      have := hr a
      simp [read] at this
      exact absurd this h.2.2.1
    | cons c' rest' =>
      obtain ⟨a', b'⟩ := c'
      have hc' := h'
      rw [canonicalAbove_cons] at h'
      have haa : a = a' := by
        rcases Nat.lt_trichotomy a a' with hlt | heq | hgt
        · have := hr a
          simp [read, show a ≠ a' by omega, hlt] at this
          exact absurd this h.2.2.1
        · exact heq
        · have := hr a'
          simp [read, show a' ≠ a by omega, hgt] at this
          exact absurd this.symm h'.2.2.1
      subst haa
      have hb : b = b' := by simpa [read] using hr a
      subst hb
      have hrest : rest = rest' := ih h.2.2.2 h'.2.2.2 fun x => by
        by_cases hx : x ≤ a
        · rw [read_of_lt h.2.2.2 (by omega), read_of_lt h'.2.2.2 (by omega)]
        · have := hr x
          simpa [read, show x ≠ a by omega, show ¬x < a by omega] using this
      rw [hrest]

/-- The array's list after reset has the canonical form. -/
theorem State.reset_mem_wf : State.reset.mem.wf = true := rfl

end Sys2Proof.Machine
end

