-- ==== Sys2Proof/Laws/Registers.lean ====
section
/-! SUPPORT. What each register of the control space reads, offset by offset, and the fields of the words that have more
than one. -/

namespace Sys2Proof.Machine

/-! ## Fields of words -/

section

variable {m n : Nat}

/-- The field at the low end of a word. -/
theorem field_low (x : BitVec n) (y : BitVec m) : (x ++ y).extractLsb' 0 m = y := by
  ext i h
  simp [BitVec.getLsbD_append, h]

/-- A field above the low one lies as far above it as in the rest of the word. -/
theorem field_above (x : BitVec n) (y : BitVec m) (i k : Nat) : (x ++ y).extractLsb' (m + i) k = x.extractLsb' i k := by
  ext j h
  simp [BitVec.getLsbD_append, Nat.add_assoc]

/-- A bit above the low field lies as far above it as in the rest of the word. -/
theorem bit_above (x : BitVec n) (y : BitVec m) (i : Nat) : (x ++ y).getLsbD (m + i) = x.getLsbD i := by
  simp [BitVec.getLsbD_append]

/-- The bit of a one-bit field at the low end of a word. -/
theorem bit_low (x : BitVec n) (b : Bool) : (x ++ BitVec.ofBool b).getLsbD 0 = b := by
  rw [BitVec.getLsbD_append]
  simp

end

/-- Bits 15 and 14, bits 13 to 8 and the low byte of a word made of them. -/
theorem flagsWord_fields (a b : Bool) (c : BitVec 6) (d : Byte) :
    (BitVec.ofBool a ++ BitVec.ofBool b ++ c ++ d : Word).extractLsb' 0 8 = d ∧
      (BitVec.ofBool a ++ BitVec.ofBool b ++ c ++ d : Word).extractLsb' 8 6 = c ∧
      (BitVec.ofBool a ++ BitVec.ofBool b ++ c ++ d : Word).getLsbD 14 = b ∧
      (BitVec.ofBool a ++ BitVec.ofBool b ++ c ++ d : Word).getLsbD 15 = a :=
  ⟨field_low _ d, (field_above _ d 0 6).trans (field_low _ c),
    ((bit_above _ d 6).trans (bit_above _ c 0)).trans (bit_low _ b),
    ((bit_above _ d 7).trans (bit_above _ c 1)).trans ((bit_above _ (BitVec.ofBool b) 0).trans (by simp))⟩

/-- Bit 15, bits 14 to 12, bits 11 to 8 and the low byte of a word made of them (R202). -/
theorem faultWord_fields (a : Bool) (b : BitVec 3) (c : BitVec 4) (d : Byte) :
    (BitVec.ofBool a ++ b ++ c ++ d : Word).extractLsb' 0 8 = d ∧
      (BitVec.ofBool a ++ b ++ c ++ d : Word).extractLsb' 8 4 = c ∧
      (BitVec.ofBool a ++ b ++ c ++ d : Word).extractLsb' 12 3 = b ∧
      (BitVec.ofBool a ++ b ++ c ++ d : Word).getLsbD 15 = a :=
  ⟨field_low _ d, (field_above _ d 0 4).trans (field_low _ c),
    ((field_above _ d 4 3).trans (field_above _ c 0 3)).trans (field_low _ b),
    ((bit_above _ d 7).trans (bit_above _ c 3)).trans ((bit_above _ b 0).trans (by simp))⟩

/-- The reader bits, the mark, the state and the generation of FRAME_INFO's first word (R202). -/
theorem infoWord_fields (a : BitVec 4) (b : Bool) (c : BitVec 3) (d : Byte) :
    (a ++ BitVec.ofBool b ++ c ++ d : Word).extractLsb' 0 8 = d ∧
      (a ++ BitVec.ofBool b ++ c ++ d : Word).extractLsb' 8 3 = c ∧
      (a ++ BitVec.ofBool b ++ c ++ d : Word).getLsbD 11 = b ∧
      ∀ i, i < 4 → (a ++ BitVec.ofBool b ++ c ++ d : Word).getLsbD (12 + i) = a.getLsbD i := by
  refine ⟨field_low _ d, (field_above _ d 0 3).trans (field_low _ c),
    ((bit_above _ d 3).trans (bit_above _ c 0)).trans (bit_low _ b), fun i _ => ?_⟩
  rw [show 12 + i = 8 + (3 + (1 + i)) by omega]
  exact ((bit_above _ d _).trans (bit_above _ c _)).trans (bit_above _ (BitVec.ofBool b) i)

/-- ID1's fields (R163, R200). -/
theorem idWord_fields (a : Byte) (b : BitVec 1) (c : Bool) (d : BitVec 2) (e : BitVec 4) :
    (a ++ b ++ BitVec.ofBool c ++ d ++ e : Word).extractLsb' 0 4 = e ∧
      (a ++ b ++ BitVec.ofBool c ++ d ++ e : Word).extractLsb' 4 2 = d ∧
      (a ++ b ++ BitVec.ofBool c ++ d ++ e : Word).getLsbD 6 = c ∧
      (a ++ b ++ BitVec.ofBool c ++ d ++ e : Word).getLsbD 7 = b.getLsbD 0 ∧
      (a ++ b ++ BitVec.ofBool c ++ d ++ e : Word).extractLsb' 8 8 = a := by
  refine ⟨field_low _ e, (field_above _ e 0 2).trans (field_low _ d),
    ((bit_above _ e 2).trans (bit_above _ d 0)).trans (bit_low _ c), ?_, ?_⟩
  · refine ((bit_above _ e 3).trans (bit_above _ d 1)).trans ((bit_above _ (BitVec.ofBool c) 0).trans ?_)
    rw [BitVec.getLsbD_append]
    simp
  · exact ((field_above _ e 4 8).trans (field_above _ d 2 8)).trans
      (((field_above _ (BitVec.ofBool c) 1 8).trans (field_above _ b 0 8)).trans (by simp))

/-! ## Registers by offset (R162) -/

section

variable (s : State) (p : Port)

theorem registerRead_id0 : s.registerRead p 0x00 = 0x4256 := rfl
theorem registerRead_id1 : s.registerRead p 0x02 = s.id1 p := rfl
theorem registerRead_session : s.registerRead p 0x04 = lowByte (s.session p).number := rfl
theorem registerRead_ie : s.registerRead p 0x06 = flagWord (s.queue p).enable := rfl
theorem registerRead_psel : s.registerRead p 0x08 = BitVec.ofNat 16 (s.shownProfile p).val := rfl
theorem registerRead_cmd : s.registerRead p 0x10 = lowByte (s.command p).cmd := rfl
theorem registerRead_arg0 : s.registerRead p 0x12 = (s.command p).args.arg0 := rfl
theorem registerRead_arg1 : s.registerRead p 0x14 = (s.command p).args.arg1 := rfl
theorem registerRead_arg2 : s.registerRead p 0x16 = (s.command p).args.arg2 := rfl
theorem registerRead_arg3 : s.registerRead p 0x18 = (s.command p).args.arg3 := rfl
theorem registerRead_status : s.registerRead p 0x1A = s.statusWord p := rfl
theorem registerRead_res0 : s.registerRead p 0x1C = (s.command p).res0 := rfl
theorem registerRead_res1 : s.registerRead p 0x1E = (s.command p).res1 := rfl
theorem registerRead_res2 : s.registerRead p 0x20 = (s.command p).res2 := rfl
theorem registerRead_res3 : s.registerRead p 0x22 = (s.command p).res3 := rfl
theorem registerRead_ev0 : s.registerRead p 0x30 = (s.queue p).headWords.word0 := rfl
theorem registerRead_ev1 : s.registerRead p 0x32 = (s.queue p).headWords.word1 := rfl
theorem registerRead_ev2 : s.registerRead p 0x34 = (s.queue p).headWords.word2 := rfl
theorem registerRead_ev3 : s.registerRead p 0x36 = (s.queue p).headWords.word3 := rfl
theorem registerRead_evcount : s.registerRead p 0x3A = BitVec.ofNat 16 (s.queue p).held := rfl
theorem registerRead_flt0 : s.registerRead p 0x40 = (faultWords (s.shownFault p)).word0 := rfl
theorem registerRead_flt1 : s.registerRead p 0x42 = (faultWords (s.shownFault p)).word1 := rfl
theorem registerRead_flt2 : s.registerRead p 0x44 = (faultWords (s.shownFault p)).word2 := rfl
theorem registerRead_flt3 : s.registerRead p 0x46 = (faultWords (s.shownFault p)).word3 := rfl

/-- An offset that R162 does not name reads 0000h. -/
theorem registerRead_other {offset : Nat}
    (h : offset ∉ [0x00, 0x02, 0x04, 0x06, 0x08, 0x10, 0x12, 0x14, 0x16, 0x18, 0x1A, 0x1C, 0x1E, 0x20, 0x22, 0x30,
      0x32, 0x34, 0x36, 0x3A, 0x40, 0x42, 0x44, 0x46]) : s.registerRead p offset = 0 := by
  unfold State.registerRead
  dsimp only
  split <;> first | rfl | exact absurd (by simp) h

end

end Sys2Proof.Machine
end

