-- ==== Sys2Proof/Laws/Units.lean ====
section
/-! SUPPORT. One lemma for each shared operation that says everything it can do: the placing of an event, the entries of a
port to UP and to CLOSING, the end of a job and of an offer, the head of the scrub queue, the choice of the arbiter. -/

namespace Sys2Proof.Machine

/-! ## Events -/

/-- An event that arrives is placed by the four rows of R130. -/
theorem State.arrive_eq (s : State) (p : Port) (e : EventRecord) : s.arrive (p, e) = s.placed p e := by
  unfold State.arrive State.placed
  by_cases h : (s.session p).state = .up
  · simp only [State.isUp_iff.mpr h, if_true, h, ne_eq, not_true_eq_false, if_false, EventPort.place, State.setQueue]
    cases (s.queue p).overflow with
    | none =>
      simp only [Config.queueSize, Nat.lt_succ_iff]
      split <;> rfl
    | some n => simp [saturatingNext_eq]
  · simp [State.isUp_false_iff.mpr h, h]

theorem State.arriveAll_eq (s : State) (l : List (Port × EventRecord)) :
    s.arriveAll l = l.foldl (fun t e => t.placed e.1 e.2) s := by
  unfold State.arriveAll
  congr 1
  funext t e
  exact State.arrive_eq t e.1 e.2

/-- Placing an event changes one queue alone. -/
theorem State.placed_rest (s : State) (p : Port) (e : EventRecord) : ∃ v, s.placed p e = { s with queues := v } := by
  unfold State.placed
  repeat' split
  all_goals exact ⟨_, rfl⟩

theorem State.arriveAll_rest (l : List (Port × EventRecord)) :
    ∀ s : State, ∃ v, s.arriveAll l = { s with queues := v } := by
  intro s
  rw [State.arriveAll_eq]
  induction l generalizing s with
  | nil => exact ⟨_, rfl⟩
  | cons d l ih =>
    obtain ⟨v, hv⟩ := s.placed_rest d.1 d.2
    obtain ⟨w, hw⟩ := ih (s.placed d.1 d.2)
    exact ⟨w, by rw [List.foldl_cons, hw, hv]⟩

theorem State.withEvents_rest (s : State) (source : Producer) (l : List (Port × EventRecord)) :
    ∃ v, s.withEvents source l = { s with handovers := v } := by
  unfold State.withEvents
  split
  · exact ⟨_, rfl⟩
  · exact ⟨_, rfl⟩

/-! ## Sessions -/

theorem nextSession_eq (n : Byte) : nextSession n = sessionAfter n := by
  revert n
  decide

/-- A port's entry to UP (R170, R179). -/
theorem State.enterUp_eq (s : State) (p : Port) : s.enterUp p = s.enteredUp p (s.session p) := by
  have he : (fun h : Handover => !h.events.isEmpty) = fun h => h.events != [] := by
    funext h
    cases h.events <;> rfl
  simp [State.enterUp, State.enteredUp, State.dropInTransit, nextSession_eq, State.setSession, State.setClosingTaken,
    State.setHandovers, he]

/-- A port's entry to CLOSING (R169, R171). -/
theorem State.enterClosing_eq (s : State) (p : Port) (rejoin : Bool) :
    s.enterClosing p rejoin = s.enteredClosing p (s.session p) rejoin := rfl

/-! ## Jobs, offers, the scrub queue -/

/-- The end of a job, with the report of job gone where it is owed (R125). -/
theorem State.finishJob_eq (s : State) (p : Port) : s.finishJob p = s.withoutJob p := by
  cases h : sel s.copy.owed p with
  | true => simp [State.finishJob, State.withoutJob, State.setEngine, State.setOwed, State.setSession, h]
  | false =>
    have hp : put s.copy.owed p false = s.copy.owed := by rw [← h, put_sel]
    simp [State.finishJob, State.withoutJob, State.setEngine, h, hp]

/-- The end of a frame's offer: nothing without one; else the frame is OWNED and the offer leaves its inbox (R49, R52). -/
theorem State.endOffer_some {s : State} {f : Frame} {o : Offer} (h : (s.frame f).offer = some o) :
    s.endOffer f =
      (s.setFrame f { s.frame f with state := .owned, offer := none }).setInbox o.recipient
        ((s.inbox o.recipient).erase o.frame) := by
  simp [State.endOffer, h, State.leaveInbox]

theorem State.endOffer_none {s : State} {f : Frame} (h : (s.frame f).offer = none) : s.endOffer f = s := by
  simp [State.endOffer, h]

/-- The engine at an empty queue, at a head whose mark is on, and at one whose mark is off (R33, R34). -/
theorem State.takeHead_nil {s : State} (h : s.scrub.queue = []) :
    s.takeHead = { s with scrub := { s.scrub with phase := .idle, pieces := 0 } } := by
  simp [State.takeHead, h, State.setScrub]

theorem State.takeHead_held {s : State} {f : Frame} {rest : List Frame} (h : s.scrub.queue = f :: rest)
    (hm : (s.frame f).mark = true) :
    s.takeHead = { s with scrub := { s.scrub with phase := .held, pieces := 0 } } := by
  simp [State.takeHead, h, hm, State.setScrub]

theorem State.takeHead_zeroing {s : State} {f : Frame} {rest : List Frame} (h : s.scrub.queue = f :: rest)
    (hm : (s.frame f).mark = false) :
    s.takeHead =
      { s with
        scrub := { s.scrub with phase := .zeroing, pieces := 0 }
        arbiter := { s.arbiter with presented := s.arbiter.presented ++ [.scrub] } } := by
  simp [State.takeHead, h, hm, State.setScrub, State.present, State.setArbiter]

/-- Taking up the head changes the engine's progress and, perhaps, presents its claim. -/
theorem State.takeHead_rest (s : State) :
    ∃ phase l, s.takeHead = { s with
      scrub := { s.scrub with phase := phase, pieces := 0 }, arbiter := { s.arbiter with presented := l } } := by
  unfold State.takeHead
  split
  · exact ⟨_, _, rfl⟩
  · split
    · exact ⟨_, _, rfl⟩
    · exact ⟨_, _, rfl⟩

/-! ## The arbiter -/

/-- A waiting port claim is chosen by the cyclic order after the last port granted (R194). -/
theorem Arbiter.choose_port {b : Arbiter} {p : Port}
    (h : (portsAfter b.lastPort).find? (fun q => b.waiting.contains (.port q)) = some p) :
    b.choose = some (.port p) := by
  unfold Arbiter.choose
  rw [h]

/-- With no port claim waiting the choice is among the engines (R194). -/
theorem Arbiter.no_port {b : Arbiter} (h : ∀ p, .port p ∉ b.waiting) :
    (portsAfter b.lastPort).find? (fun q => b.waiting.contains (.port q)) = none := by
  simp [h]

/-- A port's access in flight is to a word of the frame. -/
theorem WindowUnit.reaches_iff (w : WindowUnit) (f : Frame) :
    w.reaches f = true ↔
      (∃ place, w.reading = some place ∧ place.frame = f) ∨ ∃ h, w.hold = some h ∧ h.place.frame = f := by
  simp only [WindowUnit.reaches, Bool.or_eq_true]
  cases w.reading <;> cases w.hold <;> simp

/-- A piece may arrive once no port's access to the frame scrubbed is presented (R90). -/
theorem State.canArrive_scrub (s : State) :
    s.canArrive .scrub = true ↔ .scrub ∈ s.arbiter.presented ∧
      ¬∃ p f, Claimant.port p ∈ s.arbiter.presented ∧ s.scrub.queue.head? = some f ∧
        (s.window p).reaches f = true := by
  cases h : s.scrub.queue.head? <;> simp [State.canArrive, allPorts, h, imp_iff_not_or]

/-- Every other claim may arrive once it is presented. -/
theorem State.canArrive_of_ne (s : State) (c : Claimant) (h : c ≠ .scrub) :
    s.canArrive c = true ↔ c ∈ s.arbiter.presented := by cases c <;> simp_all [State.canArrive]

end Sys2Proof.Machine
end

