-- ==== Sys2Proof/Tests/Slice0.lean ====
section
/-! SUPPORT. Tests: ill-formed terms that the well-formedness check refuses, the states that the tests are about, and steps
and words whose expected values come from the worked sequences and examples of the specification. -/

namespace Sys2Proof.Tests

-- One theorem after another: a thread for each would need more memory than some builds have.
set_option Elab.async false

open Sys2Proof.Machine

/-! ## Well-formedness refuses -/

theorem test_wf_refuses_cmd_without_low_lane :
    Instr.wellFormed (.commandWrite 0 0x01 ⟨false, true⟩ ⟨false, false⟩) = false := by decide
theorem test_wf_refuses_cmd_with_both_selects :
    Instr.wellFormed (.commandWrite 0 0x01 ⟨true, true⟩ ⟨true, false⟩) = false := by decide
theorem test_wf_refuses_overrun_without_low_lane :
    Instr.wellFormed (.overrun 0 0x01 ⟨false, true⟩ ⟨false, false⟩) = false := by decide
theorem test_wf_refuses_overrun_during_read :
    Instr.wellFormed (.overrun 0 0x01 ⟨true, true⟩ ⟨false, true⟩) = false := by decide
theorem test_wf_refuses_refusal_without_low_lane :
    Instr.wellFormed (.closingRefusal 0 0x01 ⟨false, false⟩ ⟨false, false⟩) = false := by decide
theorem test_wf_refuses_ie_without_low_lane :
    Instr.wellFormed (.ieWrite 1 1 ⟨false, true⟩ ⟨false, false⟩) = false := by decide
theorem test_wf_refuses_psel_without_low_lane :
    Instr.wellFormed (.pselWrite 1 1 ⟨false, true⟩ ⟨false, false⟩) = false := by decide
theorem test_wf_refuses_evpop_without_lane :
    Instr.wellFormed (.evpop 1 1 ⟨false, false⟩ ⟨false, false⟩) = false := by decide
theorem test_wf_refuses_register_write_at_cmd :
    Instr.wellFormed (.registerWrite 0 (BitVec.ofNat 15 0x08) 1 ⟨true, true⟩ controlLevels) = false := by decide
theorem test_wf_refuses_register_write_in_window :
    Instr.wellFormed (.registerWrite 0 (BitVec.ofNat 15 0x09) 1 ⟨true, true⟩ windowLevels) = false := by decide
theorem test_wf_refuses_window_write_in_control_space :
    Instr.wellFormed (.windowWrite 0 0 1 ⟨true, true⟩ controlLevels) = false := by decide
theorem test_wf_refuses_read_without_select :
    Instr.wellFormed (.windowRead 0 (.falls 0 ⟨false, false, false⟩)) = false := by decide

/-! ## States for tests -/

def free : FrameRecord := { FrameRecord.reset with state := .free }
def own (p : Port) : FrameRecord := { FrameRecord.reset with state := .owned, owner := some p }
def lent (p q : Port) : FrameRecord := { own p with readers := put noReaders q true }
def offerOf (f : Frame) (p q : Port) (c : OfferClass) (timeout remaining : Word) : Offer := ⟨f, p, q, c, timeout, remaining⟩
def offered (o : Offer) : FrameRecord := { own o.offerer with state := .offered, offer := some o }

/-- Every port UP, every frame FREE, nothing under way. -/
def idle : State := { State.reset with
  frames := Vector.replicate 64 free
  scrub := { queue := [], phase := .idle, pieces := 0 }
  arbiter := { State.reset.arbiter with presented := [] } }

/-- Idle with one frame's record. -/
def holding (f : Frame) (r : FrameRecord) : State := idle.setFrame f r

/-- Idle with one offer held. -/
def offering (o : Offer) : State := (holding o.frame (offered o)).setInbox o.recipient [o.frame]

/-- SPLIT mode, the first sixteen frames owned by P0. -/
def atQuota : State := { idle with
  splitQuota := true
  frames := ⟨(List.replicate 16 (own 0) ++ List.replicate 48 free).toArray, by simp⟩ }

/-- A command pending. -/
def cmd (s : State) (p : Port) (code : Byte) (a : Args) : State :=
  s.setCommand p { s.command p with pendingCmd := some ⟨code, a, false⟩ }

/-- A port with this session record's state. -/
def inState (s : State) (p : Port) (st : SessionState) : State := s.setSession p { s.session p with state := st }

/-- A configured ring of four descriptors at the start of a frame that its port owns. -/
def ringing (p : Port) (f : Frame) (st : RingState) : State :=
  (holding f (own p)).setRing p ⟨st, some ⟨f, 0, 4⟩, 0, .ok, false⟩

/-- The array held by a claimant. -/
def granted (s : State) (c : Claimant) : State := s.setArbiter { s.arbiter with array := .held c }

/-- A job of P0 that copies a whole number of bytes from frame 1 to frame 2. -/
def job (length done : Nat) : Job :=
  { place := ⟨0, 3, 0, 0⟩, control := 0x000F, source := 1, sourceOffset := 0, sourceGen := 0, dest := 2, destOffset := 0
    destGen := 0, length := length, done := done, sum := 0 }

/-- P0 owns frames 1, 2 and 3 and its ring is in frame 3. -/
def copying (e : EngineState) : State :=
  granted (((ringing 0 3 .active).setFrame 1 (own 0)).setFrame 2 (own 0) |>.setEngine e) .copy

/-- The next state of a command, or the same where there is none. -/
def after (i : Instr) (s : State) : State :=
  match exec i s with
  | .next t => t
  | _ => s

/-! ## Steps and words from the specification's sequences and examples -/

/-- Layouts chapter, after R200: ID1 reads 4021h on P2 in FLAT mode and 4061h in SPLIT mode. -/
theorem test_id1_words :
    State.reset.registerRead 2 0x02 = 0x4021 ∧ { State.reset with splitQuota := true }.registerRead 2 0x02 = 0x4061 := by
  decide

/-- Layouts chapter, Decoding Examples: the FRAME_INHERITED event of the teardown sequence. -/
theorem test_frame_inherited_words : (Event.frameInherited 1 15 2 0x0015).words = ⟨0x000A, 0x0F01, 0x0002, 0x0015⟩ := by
  decide

/-- Layouts chapter, Decoding Examples: FRAME_INFO(14). -/
theorem test_frame_info_words :
    frameInfoReply { own 1 with generation := 7, label := 0x0B01 } = ⟨.ok, 0x0107, 0x0B01, 0xFF01, 0xFFFF⟩ := by decide

/-- Layouts chapter, Decoding Examples: PEEK(0) with three ticks remaining. -/
theorem test_peek_words :
    peekReply (offerOf 14 0 1 .urgent 5 3) { own 0 with generation := 6, label := 0x0B01 } =
      ⟨.ok, 0x0E06, 0x0B01, 0x0100, 0x0003⟩ := by decide

/-- Directory chapter, start-up sequence, step 2: CLAIM(5, 1) of a SCRUBBING frame is QUEUED with generation 0. -/
theorem test_claim_queued :
    let t := after (.claim 1) (cmd State.reset 1 0x01 ⟨5, 1, 0, 0⟩)
    (t.command 1).result = .queued ∧ (t.command 1).res0 = 0 ∧ (t.frame 5).reservation = some 1 := by decide +kernel

/-- Step 4: CLAIM_ANY with all 64 frames SCRUBBING is NO_FREE. -/
theorem test_claim_any_no_free :
    ((after (.claimAny 2) (cmd State.reset 2 0x02 ⟨0, 0, 0, 0⟩)).command 2).result = .noFree := by decide +kernel

/-- Step 10: a sixteenth holding makes the next reservation QUOTA, and a plain claim SCRUBBING. -/
theorem test_claim_quota :
    let s := atQuota.setFrame 47 FrameRecord.reset
    ((after (.claim 0) (cmd s 0 0x01 ⟨47, 1, 0, 0⟩)).command 0).result = .quota ∧
      ((after (.claim 0) (cmd s 0 0x01 ⟨47, 0, 0, 0⟩)).command 0).result = .scrubbing := by decide +kernel

/-- Scrubbing chapter, held release, step 2: RELEASE of a marked frame with one reader. -/
theorem test_release_revokes_and_queues :
    let s := holding 12 { lent 1 2 with generation := 3, label := 0x0A10, mark := true }
    let t := after (.release 1) (cmd s 1 0x03 ⟨12, 0, 0, 0⟩)
    t.scrub.queue = [12] ∧ (t.frame 12).state = .scrubbing ∧ (t.frame 12).generation = 3 ∧
      t.handovers = [⟨.directory, [(2, Event.readRevoked 1 12 .released)]⟩] ∧
      (after .scrubStart t).scrub.phase = .held := by decide +kernel

/-- Held release, step 8: the scrub done of frame 30 with P3's reservation. -/
theorem test_scrub_done_grants :
    let s := { holding 30 { FrameRecord.reset with generation := 7, label := 0x0002, reservation := some 3 } with
      scrub := { queue := [30], phase := .reporting, pieces := 16 } }
    let t := after .scrubDone s
    (t.frame 30).owner = some 3 ∧ (t.frame 30).generation = 8 ∧ (t.frame 30).label = 0 ∧ t.scrub.phase = .idle ∧
      t.handovers = [⟨.directory, [(3, Event.claimGranted 30 8)]⟩] := by decide +kernel

/-- Offer chapter, handover sequence, step 1: an URGENT offer goes ahead of a NORMAL one. -/
theorem test_offer_urgent_first :
    let s := (offering (offerOf 40 3 1 .normal 0 0)).setFrame 14 (own 0)
    (after (.offer 0) (cmd s 0 0x10 ⟨14, 1, 1, 5⟩)).inbox 1 = [14, 40] := by decide +kernel

/-- Step 5: ACCEPT with the count at 16 is QUOTA and the offer stays. -/
theorem test_accept_quota :
    let s := (atQuota.setFrame 40 (offered (offerOf 40 3 0 .normal 0 0))).setInbox 0 [40]
    let t := after (.accept 0) (cmd s 0 0x12 ⟨40, 0, 0, 0⟩)
    (t.command 0).result = .quota ∧ t.inbox 0 = [40] := by decide +kernel

/-- Step 9: ACCEPT taken first: generation 7, no readers, the events in their order. -/
theorem test_accept_passes :
    let o := offerOf 14 0 1 .urgent 5 1
    let r := { offered o with
      generation := 6, label := 0x0B01, readers := put (put noReaders 2 true) 3 true, fallback := some 3 }
    let t := after (.accept 1) (cmd ((offering o).setFrame 14 r) 1 0x12 ⟨14, 0, 0, 0⟩)
    t.frame 14 = { own 1 with generation := 7, label := 0x0B01 } ∧ (t.command 1).res0 = 7 ∧
      t.handovers = [⟨.directory, [(2, Event.readRevoked 0 14 .ownerChanged), (3, Event.readRevoked 0 14 .ownerChanged),
        (0, Event.offerAccepted 1 14 7)]⟩] := by decide +kernel

/-- Step 9: the fifth tick taken first: the frame is P0's again, and the two events go out. -/
theorem test_tick_expires :
    let t := (offering (offerOf 14 0 1 .urgent 5 1)).takeTick
    (t.frame 14).state = .owned ∧ (t.frame 14).owner = some 0 ∧ t.inbox 1 = [] ∧
      t.handovers = [⟨.directory, [(0, Event.offerExpired 1 14), (1, Event.offerCancelled 0 14 .expired)]⟩] := by
  decide +kernel

/-- Handover sequence, step 2: a write of an OFFERED frame by its owner faults with SUSPENDED. -/
theorem test_write_suspended :
    let s := (offering (offerOf 14 0 1 .urgent 5 5)).setWindow 0
      (WindowUnit.reset.setEntry 0 4 (some ⟨14, .rw⟩))
    let t := after (.windowWrite 0 (BitVec.ofNat 15 0x2004) 0x1234 ⟨true, true⟩ windowLevels) s
    (t.window 0).fault = some ⟨.suspended, 0x4008, some 14, .write, 0⟩ ∧ (t.window 0).hold = none := by decide +kernel

/-- Event chapter, overflow sequence, steps 3 and 4: the 32nd event overflows and a POST is DROPPED. -/
theorem test_overflow_and_dropped :
    let s := idle.setQueue 2 ⟨List.replicate 31 (Event.copyDone 0), none, true⟩
    let t := s.arrive (2, Event.copyDone 7)
    let u := after (.post 3) (cmd t 3 0x30 ⟨2, 0x0055, 0, 0⟩)
    (t.queue 2).overflow = some 1 ∧ (t.queue 2).held = 32 ∧ (u.command 3).result = .dropped ∧
      (u.queue 2).overflow = some 2 := by decide +kernel

/-- Step 9: the last EVPOP removes the OVERFLOW event and IRQ# is released. -/
theorem test_evpop_ends_freeze :
    let s := idle.setQueue 2 ⟨[], some 5, true⟩
    s.irqAsserted 2 = true ∧ (s.queue 2).headWords = ⟨0x0011, 0xFFFF, 0x0000, 0x0005⟩ ∧
      (after (.evpop 2 0 ⟨true, true⟩ cselAlone) s).irqAsserted 2 = false := by decide +kernel

/-- R157: a CMD write discarded while a command accepted with OVERRUN on is pending leaves OVERRUN on in its result. -/
theorem test_overrun_shown_with_result :
    let s := idle.setCommand 0 { idle.command 0 with overrun := true }
    let u := after (.commandWrite 0 0x3E ⟨true, false⟩ cselAlone) s
    let v := after (.overrun 0 0x01 ⟨true, false⟩ cselAlone) u
    ((after (.unknown 0) u).command 0).overrun = false ∧ ((after (.unknown 0) v).command 0).overrun = true := by
  decide +kernel

/-- R186: a write with RD# low is not taken, and the lines of the read are driven on. -/
theorem test_write_during_read_not_taken :
    let s := idle.setWindow 0 { WindowUnit.reset with dataOut := some 0x5A5A }
    after (.windowWrite 0 0 1 ⟨true, true⟩ ⟨true, false, true⟩) s = s := by decide +kernel

/-- R187, R191: a control read drives its word until RD# rises. -/
theorem test_control_read_drives_word :
    let t := after (.windowRead 0 (.falls 0 controlLevels)) idle
    (t.window 0).dataOut = some 0x4256 ∧ after (.windowRead 0 .rises) t = idle := by decide +kernel

/-- R192: with PRST# low and a held write RDY is high, an access that waited behind it gone; R189: the write is held on. -/
theorem test_prst_drops_waiting_access :
    let held : HeldWrite := ⟨⟨63, 0⟩, 0x1234, true, true⟩
    let s := idle.setWindow 0 { WindowUnit.reset with hold := some held, delayed := some ⟨.read, 0, 0, false, false⟩ }
    let t := after (.prstAsserted 0) s
    s.rdyHigh 0 = false ∧ t.rdyHigh 0 = true ∧ (t.window 0).hold = some held ∧
      (after (.prstReleased 0) t).cycleTaken 0 = true := by decide +kernel

/-- R199: the tick of TICK comes at the 25 000th period, whatever the count it is asked at. -/
theorem test_tick_at_last_period :
    after .tick { idle with tickCount := 7 } = after .tick { idle with tickCount := 24999 } := by decide +kernel

/-- R116's example: 4 bytes copied from 100h to 101h, with 5Ah at 100h. -/
theorem test_overlapping_copy :
    let m := Memory.copyBytes [(0x100, 0x5A)] 0x100 0x101 4
    Memory.readBytes m 0x100 6 = [0x5A, 0x5A, 0x5A, 0x5A, 0x5A, 0x00] := by decide

/-- R119's example: two segments of 256 bytes that all hold 01h sum to 00010100h. -/
theorem test_checksum :
    (((job 1024 0).advance (List.replicate 256 0x01)).advance (List.replicate 256 0x01)).sum = 0x00010100 ∧
      (((job 1024 0).advance (List.replicate 256 0x01)).advance (List.replicate 256 0x01)).done = 512 := by
  decide +kernel

/-- Layouts chapter, copy sequence: control word 000Eh, status 05h, bytes done 0200h, checksum 00010100h. -/
theorem test_write_back_bytes :
    let w : WriteBack := ⟨⟨0, 3, 0, 3⟩, 0x000F, .accessLost, 512, 0x00010100⟩
    w.controlBytes = [0x0E, 0x00] ∧ w.resultBytes = [0x05, 0x00, 0x00, 0x02, 0x00, 0x01, 0x01, 0x00] := by decide

/-- R172: the session number wraps from 255 to 1. -/
theorem test_session_wraps : nextSession 255 = 1 ∧ nextSession 1 = 2 := by decide

/-- R198: the rising edge of RST# with QMODE low and every PRST# high gives the state after reset. -/
theorem test_rising_edge_is_reset :
    State.atRisingEdge { idle with rstLow := true } false (Vector.replicate 4 true) = State.reset := by decide +kernel

end Sys2Proof.Tests
end

