-- ==== Sys2Proof/Tests/Witnesses.lean ====
section
/-! SUPPORT. For each statement of Certificates/Slice0/Obligations.lean about the queue and about the commands of R153, a
state and operands that meet its hypotheses together, clause by clause, at the ends of the operands' ranges. -/

namespace Sys2Proof.Tests

-- One theorem after another: a thread for each would need more memory than some builds have.
set_option Elab.async false

open Sys2Proof.Machine

/-- A command with these arguments is there to be taken in the state, and the rest of a clause's hypotheses hold. -/
abbrev Asks (s : State) (p : Port) (code : Byte) (a : Args) (P : State → Args → Prop) : Prop :=
  (cmd s p code a).Ready p code a false ∧ P (cmd s p code a) a

/-- The frame is the port's ring frame, as the statements write it. -/
abbrev IsRing (s : State) (p : Port) (f : Frame) : Prop :=
  (s.ring p).state ≠ .unset ∧ ∃ c, (s.ring p).config = some c ∧ c.frame = f

/-- A job of the port is current, as the statements write it. -/
abbrev Current (s : State) (p : Port) : Prop := ∃ j, s.copy.engine.place? = some j ∧ j.port = p

/-- A fetch of the port is in progress, as the statements write it. -/
abbrev Fetching (s : State) (p : Port) : Prop := ∃ j, s.copy.engine = .fetching j ∧ j.port = p

theorem fetching_of {s : State} {p : Port} (h : s.fetchInProgress p = true) : Fetching s p :=
  State.fetchInProgress_iff.mp h

theorem not_fetching_of {s : State} {p : Port} (h : s.fetchInProgress p = false) : ¬Fetching s p :=
  fun x => Bool.false_ne_true (h.symm.trans (State.fetchInProgress_iff.mpr x))

/-! ## The queue and the step -/

theorem witness_StepRunsFrontCommand : { idle with pending := [.tick, .selection] }.pending = .tick :: [.selection] := rfl

theorem witness_IdleStepCountsOnePeriod :
    (idle.pending = [] ∧ { idle with rstLow := true }.pending = [] ∧ { idle with tickCount := 24998 }.pending = [] ∧
        { idle with tickCount := 24999 }.pending = []) ∧
      { idle with rstLow := true }.rstLow = true ∧ (idle.rstLow = false ∧ idle.tickCount < 24999) ∧
      ({ idle with tickCount := 24998 }.rstLow = false ∧ { idle with tickCount := 24998 }.tickCount < 24999) ∧
      { idle with tickCount := 24999 }.rstLow = false ∧ 24999 ≤ { idle with tickCount := 24999 }.tickCount := by
  decide +kernel

theorem witness_ExecKeepsQueue :
    ∃ t, exec (.detach 0) (cmd { idle with pending := [.tick] } 0 0x3F ⟨0, 0, 0, 0⟩) = .next t := ⟨_, rfl⟩

theorem witness_NothingTakenWhileRstLow :
    { idle with rstLow := true }.rstLow = true ∧ (∀ qmode prst, Instr.tick ≠ .rstRisingEdge qmode prst) ∧
      ∀ qmode prst, Instr.detach 3 ≠ .rstRisingEdge qmode prst := ⟨rfl, nofun, nofun⟩

/-! ## Commands at a port's closing -/

/-- A closing port whose announcement waits at the Command Unit. -/
def closingAtCommands : State :=
  idle.setSession 0 { idle.session 0 with state := .closing false .awaitJob, prstLow := true, annCommand := true }

theorem witness_CommandOfClosingPortDiscarded :
    let s := cmd closingAtCommands 0 0x03 ⟨5, 0, 0, 0⟩
    let u := cmd closingAtCommands 0 0x3E ⟨0, 0, 0, 0⟩
    (s.rstLow = false ∧ (s.session 0).state ≠ .up ∧ (s.command 0).pendingCmd = some ⟨0x03, ⟨5, 0, 0, 0⟩, false⟩ ∧
        ∃ row ∈ ownerRows, row.1 = (⟨0x03, ⟨5, 0, 0, 0⟩, false⟩ : PendingCommand).code) ∧
      (u.rstLow = false ∧ (u.session 0).state ≠ .up ∧ (u.command 0).pendingCmd = some ⟨0x3E, ⟨0, 0, 0, 0⟩, false⟩ ∧
        ∀ row ∈ ownerRows, row.1 ≠ (⟨0x3E, ⟨0, 0, 0, 0⟩, false⟩ : PendingCommand).code) ∧
      (closingAtCommands.rstLow = false ∧ (closingAtCommands.session 0).annCommand = true ∧
        (closingAtCommands.command 0).pendingCmd = none) ∧
      (s.session 0).annCommand = true ∧ (s.command 0).pendingCmd ≠ none := by
  decide +kernel

/-! ## The frame commands -/

/-- A SCRUBBING frame with this reservation. -/
def scrubbing (q : Option Port) : FrameRecord := { FrameRecord.reset with reservation := q }

theorem witness_ClaimAnswersByTable :
    Asks idle 0 0x01 ⟨64, 0, 0, 0⟩ (fun _ a => 64 ≤ a.arg0.toNat) ∧
      Asks idle 0 0x01 ⟨63, 2, 0, 0⟩ (fun _ a => 2 ≤ a.arg1.toNat) ∧
      Asks atQuota 1 0x01 ⟨63, 1, 0, 0⟩ (fun s a => a.arg0.toNat = (63 : Frame).val ∧ a.arg1.toNat = true.toNat ∧
        (s.frame 63).state = .free ∧ ¬s.AtQuota 1) ∧
      Asks atQuota 0 0x01 ⟨16, 0, 0, 0⟩ (fun s a => a.arg0.toNat = (16 : Frame).val ∧ a.arg1.toNat = false.toNat ∧
        (s.frame 16).state = .free ∧ s.AtQuota 0) ∧
      Asks (holding 0 (own 3)) 3 0x01 ⟨0, 0, 0, 0⟩ (fun s a => a.arg0.toNat = (0 : Frame).val ∧
        ((s.frame 0).state = .owned ∨ (s.frame 0).state = .offered) ∧ (s.frame 0).owner = some 3) ∧
      Asks (offering (offerOf 7 3 2 .normal 0 0)) 2 0x01 ⟨7, 1, 0, 0⟩ (fun s a => a.arg0.toNat = (7 : Frame).val ∧
        ((s.frame 7).state = .owned ∨ (s.frame 7).state = .offered) ∧ (s.frame 7).owner ≠ some 2) ∧
      Asks (holding 5 (scrubbing none)) 0 0x01 ⟨5, 0, 0, 0⟩ (fun s a => a.arg0.toNat = (5 : Frame).val ∧
        (s.frame 5).state = .scrubbing ∧ (s.frame 5).reservation = none ∧ a.arg1.toNat = false.toNat) ∧
      Asks (holding 5 (scrubbing none)) 0 0x01 ⟨5, 1, 0, 0⟩ (fun s a => a.arg0.toNat = (5 : Frame).val ∧
        (s.frame 5).state = .scrubbing ∧ (s.frame 5).reservation = none ∧ a.arg1.toNat = true.toNat ∧ ¬s.AtQuota 0) ∧
      Asks (atQuota.setFrame 50 (scrubbing none)) 0 0x01 ⟨50, 1, 0, 0⟩ (fun s a => a.arg0.toNat = (50 : Frame).val ∧
        (s.frame 50).state = .scrubbing ∧ (s.frame 50).reservation = none ∧ a.arg1.toNat = true.toNat ∧ s.AtQuota 0) ∧
      Asks (holding 5 (scrubbing (some 0))) 0 0x01 ⟨5, 0, 0, 0⟩ (fun s a => a.arg0.toNat = (5 : Frame).val ∧
        (s.frame 5).state = .scrubbing ∧ (s.frame 5).reservation = some 0) ∧
      Asks (holding 5 (scrubbing (some 2))) 0 0x01 ⟨5, 1, 0, 0⟩ (fun s a => a.arg0.toNat = (5 : Frame).val ∧
        (2 : Port) ≠ 0 ∧ (s.frame 5).state = .scrubbing ∧ (s.frame 5).reservation = some 2) := by
  and_intros <;> decide +kernel

theorem witness_ClaimAnyTakesLowestFree :
    Asks atQuota 0 0x02 ⟨0, 0, 0, 0⟩ (fun s _ => s.AtQuota 0) ∧
      Asks State.reset 0 0x02 ⟨0, 0, 0, 0⟩ (fun s _ => ¬s.AtQuota 0 ∧ ∀ f, (s.frame f).state ≠ .free) ∧
      Asks atQuota 1 0x02 ⟨0, 0, 0, 0⟩ (fun s _ => ¬s.AtQuota 1 ∧ (s.frame 16).state = .free ∧
        ∀ g, g < 16 → (s.frame g).state ≠ .free) ∧
      Asks (State.reset.setFrame 63 free) 3 0x02 ⟨0, 0, 0, 0⟩ (fun s _ => ¬s.AtQuota 3 ∧ (s.frame 63).state = .free ∧
        ∀ g, g < 63 → (s.frame g).state ≠ .free) := by decide +kernel

theorem witness_ReleaseSendsFrameToScrub :
    Asks idle 0 0x03 ⟨64, 0, 0, 0⟩ (fun _ a => 64 ≤ a.arg0.toNat) ∧
      Asks (holding 63 (own 1)) 0 0x03 ⟨63, 0, 0, 0⟩ (fun s a => a.arg0.toNat = (63 : Frame).val ∧
        (s.frame 63).owner ≠ some 0) ∧
      Asks (offering (offerOf 7 0 2 .normal 0 0)) 0 0x03 ⟨7, 0, 0, 0⟩ (fun s a => a.arg0.toNat = (7 : Frame).val ∧
        (s.frame 7).owner = some 0 ∧ (s.frame 7).state = .offered) ∧
      Asks (ringing 0 3 .idle) 0 0x03 ⟨3, 0, 0, 0⟩ (fun s a => a.arg0.toNat = (3 : Frame).val ∧
        (s.frame 3).owner = some 0 ∧ (s.frame 3).state ≠ .offered ∧ IsRing s 0 3) ∧
      Asks ((ringing 0 3 .idle).setFrame 4 (lent 0 1)) 0 0x03 ⟨4, 0, 0, 0⟩ (fun s a => a.arg0.toNat = (4 : Frame).val ∧
        (s.frame 4).owner = some 0 ∧ (s.frame 4).state ≠ .offered ∧ ¬IsRing s 0 4) := by
  decide +kernel

theorem witness_LabelSetsLabel :
    Asks idle 0 0x04 ⟨64, 0, 0, 0⟩ (fun _ a => 64 ≤ a.arg0.toNat) ∧
      Asks (holding 63 (own 1)) 0 0x04 ⟨63, 0xFFFF, 0, 0⟩ (fun s a => a.arg0.toNat = (63 : Frame).val ∧
        (s.frame 63).owner ≠ some 0) ∧
      Asks (offering (offerOf 7 0 2 .normal 0 0)) 0 0x04 ⟨7, 1, 0, 0⟩ (fun s a => a.arg0.toNat = (7 : Frame).val ∧
        (s.frame 7).owner = some 0 ∧ (s.frame 7).state = .offered) ∧
      Asks (holding 63 (own 0)) 0 0x04 ⟨63, 0xFFFF, 0, 0⟩ (fun s a => a.arg0.toNat = (63 : Frame).val ∧
        (s.frame 63).owner = some 0 ∧ (s.frame 63).state ≠ .offered) := by decide +kernel

theorem witness_FallbackNamesHeir :
    Asks idle 0 0x05 ⟨64, 0, 0, 0⟩ (fun _ a => 64 ≤ a.arg0.toNat) ∧
      Asks idle 0 0x05 ⟨63, 4, 0, 0⟩ (fun _ a => 4 ≤ a.arg1.toNat ∧ a.arg1 ≠ 0x00FF) ∧
      Asks idle 0 0x05 ⟨63, 0xFF, 0, 0⟩ (fun s a => a.arg0.toNat = (63 : Frame).val ∧ a.arg1 = 0x00FF ∧
        (s.frame 63).owner ≠ some 0) ∧
      Asks (holding 63 { own 0 with fallback := some 2 }) 0 0x05 ⟨63, 0xFF, 0, 0⟩ (fun s a =>
        a.arg0.toNat = (63 : Frame).val ∧ a.arg1 = 0x00FF ∧ (s.frame 63).owner = some 0) ∧
      Asks idle 0 0x05 ⟨63, 3, 0, 0⟩ (fun s a => a.arg0.toNat = (63 : Frame).val ∧ a.arg1.toNat = (3 : Port).val ∧
        (s.frame 63).owner ≠ some 0) ∧
      Asks (holding 0 (own 0)) 0 0x05 ⟨0, 0, 0, 0⟩ (fun s a => a.arg0.toNat = (0 : Frame).val ∧
        a.arg1.toNat = (0 : Port).val ∧ (s.frame 0).owner = some 0 ∧ (0 : Port) = 0) ∧
      Asks ((holding 0 (own 0)).setClosingTaken 3 true) 0 0x05 ⟨0, 3, 0, 0⟩ (fun s a =>
        a.arg0.toNat = (0 : Frame).val ∧ a.arg1.toNat = (3 : Port).val ∧ (s.frame 0).owner = some 0 ∧
          (3 : Port) ≠ 0 ∧ s.dirUp 3 = false) ∧
      Asks (holding 0 (own 0)) 0 0x05 ⟨0, 3, 0, 0⟩ (fun s a => a.arg0.toNat = (0 : Frame).val ∧
        a.arg1.toNat = (3 : Port).val ∧ (s.frame 0).owner = some 0 ∧ (3 : Port) ≠ 0 ∧ s.dirUp 3 = true) := by
  decide +kernel

theorem witness_FrameInfoShowsRecord :
    Asks idle 0 0x06 ⟨64, 0, 0, 0⟩ (fun _ a => 64 ≤ a.arg0.toNat) ∧
      Asks (holding 63 (own 1)) 0 0x06 ⟨63, 0, 0, 0⟩ (fun _ a => a.arg0.toNat = (63 : Frame).val) := by decide +kernel

theorem witness_LendAddsReader :
    Asks idle 0 0x08 ⟨64, 0, 0, 0⟩ (fun _ a => 64 ≤ a.arg0.toNat) ∧
      Asks idle 0 0x08 ⟨63, 4, 0, 0⟩ (fun _ a => 4 ≤ a.arg1.toNat) ∧
      Asks idle 0 0x08 ⟨63, 3, 0, 0⟩ (fun s a => a.arg0.toNat = (63 : Frame).val ∧ a.arg1.toNat = (3 : Port).val ∧
        (s.frame 63).owner ≠ some 0) ∧
      Asks (holding 63 (own 0)) 0 0x08 ⟨63, 0, 0, 0⟩ (fun s a => a.arg0.toNat = (63 : Frame).val ∧
        a.arg1.toNat = (0 : Port).val ∧ (s.frame 63).owner = some 0 ∧ (0 : Port) = 0) ∧
      Asks ((holding 63 (own 0)).setClosingTaken 3 true) 0 0x08 ⟨63, 3, 0, 0⟩ (fun s a =>
        a.arg0.toNat = (63 : Frame).val ∧ a.arg1.toNat = (3 : Port).val ∧ (s.frame 63).owner = some 0 ∧
          (3 : Port) ≠ 0 ∧ s.dirUp 3 = false) ∧
      Asks (holding 63 (lent 0 3)) 0 0x08 ⟨63, 3, 0, 0⟩ (fun s a => a.arg0.toNat = (63 : Frame).val ∧
        a.arg1.toNat = (3 : Port).val ∧ (s.frame 63).owner = some 0 ∧ (3 : Port) ≠ 0 ∧ s.dirUp 3 = true ∧
          sel (s.frame 63).readers 3 = true) ∧
      Asks (offering (offerOf 7 0 2 .normal 0 0)) 0 0x08 ⟨7, 3, 0, 0⟩ (fun s a => a.arg0.toNat = (7 : Frame).val ∧
        a.arg1.toNat = (3 : Port).val ∧ (s.frame 7).owner = some 0 ∧ (3 : Port) ≠ 0 ∧ s.dirUp 3 = true ∧
          sel (s.frame 7).readers 3 = false) := by decide +kernel

theorem witness_RevokeRemovesReader :
    Asks idle 0 0x09 ⟨64, 0, 0, 0⟩ (fun _ a => 64 ≤ a.arg0.toNat) ∧
      Asks idle 0 0x09 ⟨63, 4, 0, 0⟩ (fun _ a => 4 ≤ a.arg1.toNat) ∧
      Asks idle 0 0x09 ⟨63, 3, 0, 0⟩ (fun s a => a.arg0.toNat = (63 : Frame).val ∧ a.arg1.toNat = (3 : Port).val ∧
        (s.frame 63).owner ≠ some 0) ∧
      Asks (holding 63 (own 0)) 0 0x09 ⟨63, 3, 0, 0⟩ (fun s a => a.arg0.toNat = (63 : Frame).val ∧
        a.arg1.toNat = (3 : Port).val ∧ (s.frame 63).owner = some 0 ∧ sel (s.frame 63).readers 3 = false) ∧
      Asks (holding 63 (lent 0 3)) 0 0x09 ⟨63, 3, 0, 0⟩ (fun s a => a.arg0.toNat = (63 : Frame).val ∧
        a.arg1.toNat = (3 : Port).val ∧ (s.frame 63).owner = some 0 ∧ sel (s.frame 63).readers 3 = true) := by
  decide +kernel

theorem witness_DropLeavesReaderSet :
    Asks idle 0 0x0A ⟨64, 0, 0, 0⟩ (fun _ a => 64 ≤ a.arg0.toNat) ∧
      Asks (holding 63 (own 0)) 0 0x0A ⟨63, 0, 0, 0⟩ (fun s a => a.arg0.toNat = (63 : Frame).val ∧
        sel (s.frame 63).readers 0 = false) ∧
      Asks (holding 63 (lent 0 3)) 3 0x0A ⟨63, 0, 0, 0⟩ (fun s a => a.arg0.toNat = (63 : Frame).val ∧
        sel (s.frame 63).readers 3 = true) := by decide +kernel

/-! ## The offer commands -/

/-- P1's inbox holds this many NORMAL offers from P2, of frames 0, 1, 2, and so on. -/
def inboxed : Nat → State
  | 0 => idle
  | n + 1 =>
    let f := Fin.ofNat 64 n
    ((inboxed n).setFrame f (offered (offerOf f 2 1 .normal 0 0))).setInbox 1 ((inboxed n).inbox 1 ++ [f])

theorem witness_OfferEntersInbox :
    Asks idle 0 0x10 ⟨64, 0, 0, 0⟩ (fun _ a => 64 ≤ a.arg0.toNat) ∧
      Asks idle 0 0x10 ⟨63, 4, 0, 0⟩ (fun _ a => 4 ≤ a.arg1.toNat) ∧
      Asks idle 0 0x10 ⟨63, 1, 2, 0⟩ (fun _ a => 2 ≤ a.arg2.toNat) ∧
      Asks idle 0 0x10 ⟨63, 1, 1, 0⟩ (fun s a => a.arg0.toNat = (63 : Frame).val ∧ a.arg1.toNat = (1 : Port).val ∧
        a.arg2.toNat = OfferClass.urgent.code.toNat ∧ (s.frame 63).owner ≠ some 0) ∧
      Asks (offering (offerOf 7 0 2 .normal 0 0)) 0 0x10 ⟨7, 1, 0, 0⟩ (fun s a => a.arg0.toNat = (7 : Frame).val ∧
        a.arg1.toNat = (1 : Port).val ∧ a.arg2.toNat = OfferClass.normal.code.toNat ∧ (s.frame 7).owner = some 0 ∧
          (s.frame 7).state = .offered) ∧
      Asks (holding 63 (own 0)) 0 0x10 ⟨63, 0, 0, 0⟩ (fun s a => a.arg0.toNat = (63 : Frame).val ∧
        a.arg1.toNat = (0 : Port).val ∧ a.arg2.toNat = OfferClass.normal.code.toNat ∧
          ((s.frame 63).owner = some 0 ∧ (s.frame 63).state ≠ .offered) ∧ (0 : Port) = 0) ∧
      Asks ((holding 63 (own 0)).setClosingTaken 1 true) 0 0x10 ⟨63, 1, 0, 0⟩ (fun s a =>
        a.arg0.toNat = (63 : Frame).val ∧ a.arg1.toNat = (1 : Port).val ∧
          a.arg2.toNat = OfferClass.normal.code.toNat ∧ ((s.frame 63).owner = some 0 ∧ (s.frame 63).state ≠ .offered) ∧
            (1 : Port) ≠ 0 ∧ s.dirUp 1 = false) ∧
      Asks (ringing 0 3 .idle) 0 0x10 ⟨3, 1, 0, 0⟩ (fun s a => a.arg0.toNat = (3 : Frame).val ∧
        a.arg1.toNat = (1 : Port).val ∧ a.arg2.toNat = OfferClass.normal.code.toNat ∧
          (((s.frame 3).owner = some 0 ∧ (s.frame 3).state ≠ .offered) ∧ (1 : Port) ≠ 0 ∧ s.dirUp 1 = true) ∧
            IsRing s 0 3) ∧
      Asks ((inboxed 8).setFrame 63 (own 0)) 0 0x10 ⟨63, 1, 1, 0⟩ (fun s a => a.arg0.toNat = (63 : Frame).val ∧
        a.arg1.toNat = (1 : Port).val ∧ a.arg2.toNat = OfferClass.urgent.code.toNat ∧
          (((s.frame 63).owner = some 0 ∧ (s.frame 63).state ≠ .offered) ∧ (1 : Port) ≠ 0 ∧ s.dirUp 1 = true) ∧
            ¬IsRing s 0 63 ∧ 8 ≤ (s.inbox 1).length) ∧
      Asks ((inboxed 7).setFrame 63 (own 0)) 0 0x10 ⟨63, 1, 1, 0xFFFF⟩ (fun s a => a.arg0.toNat = (63 : Frame).val ∧
        a.arg1.toNat = (1 : Port).val ∧ a.arg2.toNat = OfferClass.urgent.code.toNat ∧
          s.inbox 1 = [] ++ [0, 1, 2, 3, 4, 5, 6] ∧ (∀ g ∈ ([] : List Frame), s.isUrgent g = true) ∧
            (∀ g ∈ ([0, 1, 2, 3, 4, 5, 6] : List Frame), s.isUrgent g = false) ∧
              (((s.frame 63).owner = some 0 ∧ (s.frame 63).state ≠ .offered) ∧ (1 : Port) ≠ 0 ∧ s.dirUp 1 = true) ∧
                ¬IsRing s 0 63 ∧ (s.inbox 1).length < 8) ∧
      Asks ((offering (offerOf 7 2 1 .urgent 5 5)).setFrame 63 (own 0)) 0 0x10 ⟨63, 1, 0, 0⟩ (fun s a =>
        a.arg0.toNat = (63 : Frame).val ∧ a.arg1.toNat = (1 : Port).val ∧
          a.arg2.toNat = OfferClass.normal.code.toNat ∧ s.inbox 1 = [7] ++ [] ∧ (∀ g ∈ ([7] : List Frame),
            s.isUrgent g = true) ∧ (∀ g ∈ ([] : List Frame), s.isUrgent g = false) ∧
              (((s.frame 63).owner = some 0 ∧ (s.frame 63).state ≠ .offered) ∧ (1 : Port) ≠ 0 ∧ s.dirUp 1 = true) ∧
                ¬IsRing s 0 63 ∧ (s.inbox 1).length < 8) := by
  and_intros <;> decide +kernel

theorem witness_WithdrawReturnsFrame :
    Asks idle 0 0x11 ⟨64, 0, 0, 0⟩ (fun _ a => 64 ≤ a.arg0.toNat) ∧
      Asks (holding 63 (own 1)) 0 0x11 ⟨63, 0, 0, 0⟩ (fun s a => a.arg0.toNat = (63 : Frame).val ∧
        (s.frame 63).owner ≠ some 0) ∧
      Asks (holding 63 (own 0)) 0 0x11 ⟨63, 0, 0, 0⟩ (fun s a => a.arg0.toNat = (63 : Frame).val ∧
        (s.frame 63).owner = some 0 ∧ (s.frame 63).offer = none) ∧
      Asks (offering (offerOf 63 0 2 .urgent 5 1)) 0 0x11 ⟨63, 0, 0, 0⟩ (fun s a => a.arg0.toNat = (63 : Frame).val ∧
        (s.frame 63).owner = some 0 ∧ (s.frame 63).offer = some (offerOf 63 0 2 .urgent 5 1) ∧
          (offerOf 63 0 2 .urgent 5 1).frame = 63) := by decide +kernel

/-- SPLIT mode, P0 owns sixteen frames and P1 has offered it frame 40. -/
def offeredAtQuota : State := (atQuota.setFrame 40 (offered (offerOf 40 1 0 .normal 0 0))).setInbox 0 [40]

theorem witness_AcceptPassesFrame :
    Asks idle 0 0x12 ⟨64, 0, 0, 0⟩ (fun _ a => 64 ≤ a.arg0.toNat) ∧
      Asks (offering (offerOf 63 0 2 .urgent 5 1)) 1 0x12 ⟨63, 0, 0, 0⟩ (fun s a => a.arg0.toNat = (63 : Frame).val ∧
        63 ∉ s.inbox 1) ∧
      (Asks (offering (offerOf 63 0 2 .urgent 5 1)) 1 0x12 ⟨63, 0, 0, 0⟩ fun s a => a.arg0.toNat = (63 : Frame).val ∧
        ∀ o, (s.frame 63).offer = some o → o.recipient ≠ 1) ∧
      Asks offeredAtQuota 0 0x12 ⟨40, 0, 0, 0⟩ (fun s a => a.arg0.toNat = (40 : Frame).val ∧ 40 ∈ s.inbox 0 ∧
        (s.frame 40).offer = some (offerOf 40 1 0 .normal 0 0) ∧ (offerOf 40 1 0 .normal 0 0).recipient = 0 ∧
          (offerOf 40 1 0 .normal 0 0).frame = 40 ∧ s.AtQuota 0) ∧
      Asks (offering (offerOf 63 0 2 .urgent 5 1)) 2 0x12 ⟨63, 0, 0, 0⟩ (fun s a => a.arg0.toNat = (63 : Frame).val ∧
        63 ∈ s.inbox 2 ∧ (s.frame 63).offer = some (offerOf 63 0 2 .urgent 5 1) ∧
          (offerOf 63 0 2 .urgent 5 1).recipient = 2 ∧ (offerOf 63 0 2 .urgent 5 1).frame = 63 ∧ ¬s.AtQuota 2) := by
  decide +kernel

theorem witness_DeclineReturnsFrame :
    Asks idle 0 0x13 ⟨64, 0, 0, 0⟩ (fun _ a => 64 ≤ a.arg0.toNat) ∧
      Asks (offering (offerOf 63 0 2 .urgent 5 1)) 1 0x13 ⟨63, 0, 0, 0⟩ (fun s a => a.arg0.toNat = (63 : Frame).val ∧
        63 ∉ s.inbox 1) ∧
      (Asks (offering (offerOf 63 0 2 .urgent 5 1)) 1 0x13 ⟨63, 0, 0, 0⟩ fun s a => a.arg0.toNat = (63 : Frame).val ∧
        ∀ o, (s.frame 63).offer = some o → o.recipient ≠ 1) ∧
      Asks offeredAtQuota 0 0x13 ⟨40, 0, 0, 0⟩ (fun s a => a.arg0.toNat = (40 : Frame).val ∧ 40 ∈ s.inbox 0 ∧
        (s.frame 40).offer = some (offerOf 40 1 0 .normal 0 0) ∧ (offerOf 40 1 0 .normal 0 0).recipient = 0 ∧
          (offerOf 40 1 0 .normal 0 0).frame = 40) := by
  decide +kernel

theorem witness_PeekShowsOffer :
    Asks idle 0 0x14 ⟨8, 0, 0, 0⟩ (fun _ a => 8 ≤ a.arg0.toNat) ∧
      Asks (inboxed 7) 1 0x14 ⟨7, 0, 0, 0⟩ (fun s a => a.arg0.toNat < 8 ∧ (s.inbox 1).length ≤ a.arg0.toNat) ∧
      Asks (inboxed 8) 1 0x14 ⟨7, 0, 0, 0⟩ (fun s a => a.arg0.toNat < 8 ∧ (s.inbox 1)[a.arg0.toNat]? = some 7 ∧
        (s.frame 7).offer = some (offerOf 7 2 1 .normal 0 0) ∧ (offerOf 7 2 1 .normal 0 0).frame = 7) := by
  decide +kernel

/-! ## The commands of the Window Unit, the Copy Engine, the Event Unit, the Session Controller and the Command Unit -/

theorem witness_WindowUnitCommands :
    Asks idle 0 0x20 ⟨4, 0, 0, 0⟩ (fun _ a => 4 ≤ a.arg0.toNat) ∧
      Asks idle 0 0x20 ⟨3, 16, 0, 0⟩ (fun _ a => 16 ≤ a.arg1.toNat) ∧
      Asks idle 0 0x20 ⟨3, 15, 64, 0⟩ (fun _ a => 64 ≤ a.arg2.toNat) ∧
      Asks idle 0 0x20 ⟨3, 15, 63, 2⟩ (fun _ a => 2 ≤ a.arg3.toNat) ∧
      Asks idle 0 0x20 ⟨3, 15, 63, 1⟩ (fun _ a => a.arg0.toNat = (3 : Fin 4).val ∧ a.arg1.toNat = (15 : Fin 16).val ∧
        a.arg2.toNat = (63 : Frame).val ∧ a.arg3.toNat = true.toNat) ∧
      Asks idle 0 0x21 ⟨4, 0, 0, 0⟩ (fun _ a => 4 ≤ a.arg0.toNat) ∧
      Asks idle 0 0x21 ⟨3, 16, 0, 0⟩ (fun _ a => 16 ≤ a.arg1.toNat) ∧
      Asks idle 0 0x21 ⟨3, 15, 0, 0⟩ (fun _ a => a.arg0.toNat = (3 : Fin 4).val ∧ a.arg1.toNat = (15 : Fin 16).val) ∧
      Asks idle 0 0x22 ⟨4, 0, 0, 0⟩ (fun _ a => 4 ≤ a.arg0.toNat) ∧
      Asks idle 0 0x22 ⟨3, 16, 0, 0⟩ (fun _ a => 16 ≤ a.arg1.toNat) ∧
      Asks idle 0 0x22 ⟨3, 15, 0, 0⟩ (fun s a => a.arg0.toNat = (3 : Fin 4).val ∧ a.arg1.toNat = (15 : Fin 16).val ∧
        sel (sel (s.window 0).profiles 3) 15 = none) ∧
      Asks (idle.setWindow 0 (WindowUnit.reset.setEntry 3 15 (some ⟨63, .rw⟩))) 0 0x22 ⟨3, 15, 0, 0⟩ (fun s a =>
        a.arg0.toNat = (3 : Fin 4).val ∧ a.arg1.toNat = (15 : Fin 16).val ∧
          sel (sel (s.window 0).profiles 3) 15 = some ⟨63, .rw⟩) ∧
      Asks (idle.setWindow 0 { WindowUnit.reset with fault := some ⟨.noRight, 0x1000, some 1, .read, 2⟩ }) 0 0x38
        ⟨0, 0, 0, 0⟩ (fun _ _ => True) := by
  and_intros <;> decide +kernel

theorem witness_RingSetupConfigures :
    Asks idle 0 0x28 ⟨64, 0, 4, 0⟩ (fun _ a => 64 ≤ a.arg0.toNat) ∧
      Asks idle 0 0x28 ⟨63, 0, 5, 0⟩ (fun _ a => a.arg2.toNat ∉ [4, 8, 16, 32, 64, 128]) ∧
      Asks idle 0 0x28 ⟨63, 16, 4, 0⟩ (fun _ a => a.arg1.toNat % 32 ≠ 0) ∧
      Asks idle 0 0x28 ⟨63, 4000, 4, 0⟩ (fun _ a => 4096 < a.arg1.toNat + a.arg2.toNat * 32) ∧
      Asks (ringing 0 3 .stopped) 0 0x28 ⟨3, 0, 4, 0⟩ (fun s a => a.arg0.toNat = (3 : Frame).val ∧
        a.arg2.toNat ∈ [4, 8, 16, 32, 64, 128] ∧ a.arg1.toNat % 32 = 0 ∧ a.arg1.toNat + a.arg2.toNat * 32 ≤ 4096 ∧
          (s.ring 0).state ≠ .unset) ∧
      Asks idle 0 0x28 ⟨63, 0, 128, 0⟩ (fun s a => a.arg0.toNat = (63 : Frame).val ∧
        a.arg2.toNat ∈ [4, 8, 16, 32, 64, 128] ∧ a.arg1.toNat % 32 = 0 ∧ a.arg1.toNat + a.arg2.toNat * 32 ≤ 4096 ∧
          (s.ring 0).state = .unset ∧ (s.frame 63).owner ≠ some 0) ∧
      Asks (offering (offerOf 63 0 2 .urgent 5 1)) 0 0x28 ⟨63, 3968, 4, 0⟩ (fun s a => a.arg0.toNat = (63 : Frame).val ∧
        a.arg2.toNat ∈ [4, 8, 16, 32, 64, 128] ∧ a.arg1.toNat % 32 = 0 ∧ a.arg1.toNat + a.arg2.toNat * 32 ≤ 4096 ∧
          (s.ring 0).state = .unset ∧ (s.frame 63).owner = some 0 ∧ (s.frame 63).state ≠ .owned) ∧
      Asks (holding 63 (own 0)) 0 0x28 ⟨63, 3968, 4, 0⟩ (fun s a => a.arg0.toNat = (63 : Frame).val ∧
        a.arg2.toNat ∈ [4, 8, 16, 32, 64, 128] ∧ a.arg1.toNat % 32 = 0 ∧ a.arg1.toNat + a.arg2.toNat * 32 ≤ 4096 ∧
          (s.ring 0).state = .unset ∧ (s.frame 63).owner = some 0 ∧ (s.frame 63).state = .owned) := by
  and_intros <;> decide +kernel

/-- P0's ring in frame 3 in the state given, with its fetch in progress. -/
def fetchingRing (st : RingState) : State := (ringing 0 3 st).setEngine (.fetching ⟨0, 3, 0, 0⟩)

theorem witness_RingKickByState :
    Asks (ringing 0 3 .idle) 0 0x29 ⟨0, 0, 0, 0⟩ (fun s _ => (s.ring 0).state = .idle) ∧
      Asks (fetchingRing .active) 0 0x29 ⟨0, 0, 0, 0⟩ (fun s _ => (s.ring 0).state = .active ∧ Fetching s 0) ∧
      Asks (ringing 0 3 .active) 0 0x29 ⟨0, 0, 0, 0⟩ (fun s _ => (s.ring 0).state = .active ∧ ¬Fetching s 0) ∧
      Asks (fetchingRing .stopping) 0 0x29 ⟨0, 0, 0, 0⟩ (fun s _ => (s.ring 0).state = .stopping) ∧
      Asks (ringing 0 3 .stopped) 0 0x29 ⟨0, 0, 0, 0⟩ (fun s _ => (s.ring 0).state = .stopped) ∧
      Asks idle 0 0x29 ⟨0, 0, 0, 0⟩ (fun s _ => (s.ring 0).state = .unset) := by
  repeat' first | decide +kernel | exact fetching_of rfl | exact not_fetching_of rfl | apply And.intro

theorem witness_RingStopByState :
    Asks (fetchingRing .active) 0 0x2A ⟨0, 0, 0, 0⟩ (fun s _ => (s.ring 0).state = .active ∧ Current s 0) ∧
      Asks (ringing 0 3 .active) 0 0x2A ⟨0, 0, 0, 0⟩ (fun s _ => (s.ring 0).state = .active ∧ ¬Current s 0) ∧
      Asks (ringing 0 3 .idle) 0 0x2A ⟨0, 0, 0, 0⟩ (fun s _ => (s.ring 0).state = .idle) ∧
      Asks (fetchingRing .stopping) 0 0x2A ⟨0, 0, 0, 0⟩ (fun s _ => (s.ring 0).state = .stopping) ∧
      Asks (ringing 0 3 .stopped) 0 0x2A ⟨0, 0, 0, 0⟩ (fun s _ => (s.ring 0).state = .stopped) ∧
      Asks idle 0 0x2A ⟨0, 0, 0, 0⟩ (fun s _ => (s.ring 0).state = .unset) := by
  decide +kernel

theorem witness_RingCommandsByState :
    (Asks (ringing 0 3 .stopped) 0 0x2B ⟨0, 0, 0, 0⟩ (fun s _ => (s.ring 0).state = .stopped) ∧
        Asks (ringing 0 3 .idle) 0 0x2B ⟨0, 0, 0, 0⟩ (fun s _ => (s.ring 0).state ≠ .stopped)) ∧
      (Asks (ringing 0 3 .idle) 0 0x2C ⟨0, 0, 0, 0⟩ (fun s _ => (s.ring 0).state = .idle) ∧
        Asks (ringing 0 3 .stopped) 0 0x2C ⟨0, 0, 0, 0⟩ (fun s _ => (s.ring 0).state = .stopped) ∧
        Asks (fetchingRing .active) 0 0x2C ⟨0, 0, 0, 0⟩ (fun s _ =>
          (s.ring 0).state ≠ .idle ∧ (s.ring 0).state ≠ .stopped)) ∧
      Asks (ringing 0 3 .stopped) 0 0x2D ⟨0, 0, 0, 0⟩ (fun _ _ => True) := by decide +kernel

theorem witness_PostPlacesNotice :
    Asks idle 0 0x30 ⟨4, 0, 0, 0⟩ (fun _ a => 4 ≤ a.arg0.toNat) ∧
      Asks (inState idle 3 .down) 0 0x30 ⟨3, 9, 0, 0⟩ (fun s a => a.arg0.toNat = (3 : Port).val ∧
        (s.session 3).state ≠ .up) ∧
      Asks (idle.setQueue 3 ⟨List.replicate 30 (Event.copyDone 0), none, true⟩) 0 0x30 ⟨3, 9, 0, 0⟩ (fun s a =>
        a.arg0.toNat = (3 : Port).val ∧ (s.session 3).state = .up ∧
          ((s.queue 3).overflow = none ∧ (s.queue 3).ordinary.length ≤ 30)) ∧
      Asks (idle.setQueue 3 ⟨List.replicate 31 (Event.copyDone 0), none, true⟩) 0 0x30 ⟨3, 9, 0, 0⟩ (fun s a =>
        a.arg0.toNat = (3 : Port).val ∧ (s.session 3).state = .up ∧
          ¬((s.queue 3).overflow = none ∧ (s.queue 3).ordinary.length ≤ 30)) ∧
      Asks (idle.setQueue 0 ⟨[], some 0xFFFF, true⟩) 0 0x30 ⟨0, 9, 0, 0⟩ (fun s a => a.arg0.toNat = (0 : Port).val ∧
        (s.session 0).state = .up ∧ ¬((s.queue 0).overflow = none ∧ (s.queue 0).ordinary.length ≤ 30)) := by
  decide +kernel

theorem witness_DetachAndUnknown :
    Asks idle 3 0x3F ⟨0, 0, 0, 0⟩ (fun _ _ => True) ∧
      Asks idle 3 0x3E ⟨0, 0, 0, 0⟩ (fun _ _ => ∀ row ∈ ownerRows, row.1 ≠ (0x3E : Byte)) ∧
      Asks idle 3 0x00 ⟨0, 0, 0, 0⟩ (fun _ _ => ∀ row ∈ ownerRows, row.1 ≠ (0x00 : Byte)) := by decide +kernel

end Sys2Proof.Tests
end

