-- ==== Sys2Proof/Tests/UnitWitnesses.lean ====
section
/-! SUPPORT. For each statement of Certificates/Slice0/Obligations.lean about the bus cycles, the engines, the events, the
sessions, the reset and the invariants, a state and operands that meet its hypotheses together, clause by clause, at the
ends of the operands' ranges. -/

namespace Sys2Proof.Tests

-- One theorem after another: a thread for each would need more memory than some builds have.
set_option Elab.async false

open Sys2Proof.Machine

/-! ## Bus cycles -/

/-- P0 is CLOSING after DETACH: its PRST# is high. -/
def closing : State := inState idle 0 (.closing true .awaitJob)

/-- P0 is CLOSING after its PRST# went low. -/
def disconnected : State :=
  idle.setSession 0 { idle.session 0 with state := .closing false .awaitJob, prstLow := true }

/-- P0's window bus as given. -/
def bus (w : WindowUnit) : State := idle.setWindow 0 w

def place : WordPlace := ⟨63, 0xFFE⟩
def write : HeldWrite := ⟨place, 0x1234, true, false⟩
def readBehind : DelayedAccess := ⟨.read, 0, 0, false, false⟩
def writeBehind : DelayedAccess := ⟨.write, 0x7FFF, 0xABCD, true, true⟩

theorem witness_UntakenCycleChangesNothing :
    ¬{ idle with rstLow := true }.Taken 0 ∧ ¬(inState idle 0 .down).Taken 0 ∧ ¬disconnected.Taken 0 ∧
      ¬(bus { WindowUnit.reset with reading := some place }).Taken 0 ∧
      ¬(bus { WindowUnit.reset with hold := some write, delayed := some readBehind }).Taken 0 ∧
      (idle.Taken 0 ∧ (⟨true, false, true⟩ : BusLevels).otherLow = true) ∧
      (⟨false, false, false⟩ : BusLevels).wselLow = (⟨false, false, false⟩ : BusLevels).cselLow ∧
      (⟨true, true, false⟩ : BusLevels).wselLow = (⟨true, true, false⟩ : BusLevels).cselLow := by decide +kernel

theorem witness_CmdWriteAnswered :
    idle.Taken 3 ∧ ((idle.session 3).state = .up ∧ (idle.command 3).pendingCmd = none) ∧
      ((cmd idle 3 0x30 ⟨0, 0, 0, 0⟩).Taken 3 ∧ ((cmd idle 3 0x30 ⟨0, 0, 0, 0⟩).session 3).state = .up ∧
        ((cmd idle 3 0x30 ⟨0, 0, 0, 0⟩).command 3).pendingCmd = some ⟨0x30, ⟨0, 0, 0, 0⟩, false⟩) ∧
      closing.Taken 0 ∧ (closing.session 0).state = .closing true .awaitJob := by decide +kernel

/-- P0's queue holds two events. -/
def queued : State := idle.setQueue 0 ⟨[Event.copyDone 1, Event.copyDone 2], none, true⟩

/-- P0's queue holds its OVERFLOW event alone. -/
def overflowed : State := idle.setQueue 0 ⟨[], some 0xFFFF, true⟩

theorem witness_IePselEvpopWrites :
    idle.Taken 0 ∧ (true = true ∧ (idle.session 0).state = .up) ∧ ¬(false = true ∧ (idle.session 0).state = .up) ∧
      (closing.Taken 0 ∧ ¬(true = true ∧ (closing.session 0).state = .up)) ∧
      ((0xFFFF : Word).toNat % 4 = (3 : Fin 4).val) ∧
      (queued.Taken 0 ∧ (queued.queue 0).ordinary = Event.copyDone 1 :: [Event.copyDone 2]) ∧
      overflowed.Taken 0 ∧ (overflowed.queue 0).ordinary = [] := by decide +kernel

/-- The offset that a bus address selects in the control space, as the statements write it. -/
abbrev offsetAt (a : BitVec 15) : Nat := 2 * (a.toNat % 128)

theorem witness_RegisterWriteByOffset :
    idle.Taken 0 ∧ closing.Taken 0 ∧ offsetAt 0x0009 = 0x12 ∧ offsetAt 0x7F8A = 0x14 ∧ offsetAt 0x000B = 0x16 ∧
      offsetAt 0x000C = 0x18 ∧ offsetAt 0x0003 = 0x06 ∧ offsetAt 0x0004 = 0x08 ∧ offsetAt 0x0008 = 0x10 ∧
      offsetAt 0x001C = 0x38 ∧ offsetAt 0x0000 ∉ [0x06, 0x08, 0x10, 0x12, 0x14, 0x16, 0x18, 0x38] ∧
      offsetAt 0x7FFF ∉ [0x06, 0x08, 0x10, 0x12, 0x14, 0x16, 0x18, 0x38] := by decide +kernel

/-- P0's fault record holds a fault whose count is at its limit. -/
def faulted : State := bus { WindowUnit.reset with fault := some ⟨.readOnly, 0xFFFE, some 63, .write, 0xFFFF⟩ }

theorem witness_ControlReadsShowState :
    idle.Taken 0 ∧
      (∀ o ∈ [0x00, 0x02, 0x04, 0x06, 0x08, 0x10, 0x12, 0x14, 0x16, 0x18, 0x1A, 0x1C, 0x1E, 0x20, 0x22, 0x30, 0x32,
          0x34, 0x36, 0x3A, 0x40, 0x42, 0x44, 0x46], offsetAt (BitVec.ofNat 15 (o / 2)) = o) ∧
      ((idle.queue 0).ordinary = [] ∧ (idle.queue 0).overflow = none) ∧
      (queued.Taken 0 ∧ (queued.queue 0).ordinary = Event.copyDone 1 :: [Event.copyDone 2]) ∧
      (overflowed.Taken 0 ∧ (overflowed.queue 0).ordinary = [] ∧ (overflowed.queue 0).overflow = some 0xFFFF) ∧
      (queued.queue 0).ordinary.length ≤ 31 ∧ (closing.Taken 0 ∧ ¬(closing.session 0).state = .up) ∧
      (idle.window 0).fault = none ∧
      (faulted.Taken 0 ∧ (faulted.session 0).state = .up ∧
        (faulted.window 0).fault = some ⟨.readOnly, 0xFFFE, some 63, .write, 0xFFFF⟩) ∧
      offsetAt 0x7FFF ∉ [0x00, 0x02, 0x04, 0x06, 0x08, 0x10, 0x12, 0x14, 0x16, 0x18, 0x1A, 0x1C, 0x1E, 0x20, 0x22,
        0x30, 0x32, 0x34, 0x36, 0x3A, 0x40, 0x42, 0x44, 0x46] := by
  decide +kernel

/-! ## Window accesses -/

/-- P0's slot 15 maps frame 63, whose record is as given. -/
def mapped (access : Access) (r : FrameRecord) : State :=
  (holding 63 r).setWindow 0 (WindowUnit.reset.setEntry 0 15 (some ⟨63, access⟩))

/-- P0's slot 15 maps frame 63, and a frame record and access meet a clause of the statement. -/
abbrev Maps (access : Access) (r : FrameRecord) (P : FrameRecord → Prop) : Prop :=
  ((mapped access r).session 0).state = .up ∧
    sel (sel ((mapped access r).window 0).profiles ((mapped access r).window 0).active) 15 = some ⟨63, access⟩ ∧
    P ((mapped access r).frame 63)

theorem witness_WindowAccessOutcome :
    ((15 : Fin 16).val = (0x7FFF : BitVec 15).toNat / 2048 ∧
        (0xFFE : BitVec 12).toNat = 2 * ((0x7FFF : BitVec 15).toNat % 2048)) ∧
      (closing.session 0).state ≠ .up ∧
      ((idle.session 0).state = .up ∧ sel (sel (idle.window 0).profiles (idle.window 0).active) 15 = none) ∧
      Maps .rw free (fun r => r.state = .free ∨ r.state = .scrubbing) ∧
      Maps .rw (own 1) (fun r => (r.state = .owned ∨ r.state = .offered) ∧ ¬r.owner = some 0 ∧
        ¬sel r.readers 0 = true) ∧
      Maps .ro (offered (offerOf 63 0 1 .normal 0 0)) (fun r => (r.state = .owned ∨ r.state = .offered) ∧
        (r.owner = some 0 ∨ sel r.readers 0 = true)) ∧
      Maps .ro (lent 1 0) (fun r => (r.state = .owned ∨ r.state = .offered) ∧ sel r.readers 0 = true) ∧
      Maps .ro (own 0) (fun r => (r.state = .owned ∨ r.state = .offered) ∧ r.owner = some 0 ∧
        ¬sel r.readers 0 = true) ∧
      Maps .rw (offered (offerOf 63 0 1 .normal 0 0)) (fun r => r.owner = some 0 ∧ ¬sel r.readers 0 = true ∧
        r.state = .offered) ∧
      Maps .rw (own 0) (fun r => r.owner = some 0 ∧ ¬sel r.readers 0 = true ∧ r.state = .owned) := by decide +kernel

/-- P0 has a write held, and nothing behind it. -/
def writing : State := bus { WindowUnit.reset with hold := some write }

theorem witness_WindowReadTaken :
    (writing.Taken 0 ∧ (writing.window 0).hold = some write) ∧
      (closing.Taken 0 ∧ (closing.window 0).hold = none ∧ closing.checkAccess 0 0 .read = .faulted .closing none) ∧
      (idle.Taken 0 ∧ (idle.window 0).hold = none ∧ idle.checkAccess 0 0 .read = .faulted .unmapped none ∧
        FaultKind.unmapped ≠ .closing ∧ (idle.window 0).fault = none) ∧
      (faulted.Taken 0 ∧ (faulted.window 0).hold = none ∧ faulted.checkAccess 0 0 .read = .faulted .unmapped none ∧
        (faulted.window 0).fault = some ⟨.readOnly, 0xFFFE, some 63, .write, 0xFFFF⟩) ∧
      (mapped .rw (own 0)).Taken 0 ∧ ((mapped .rw (own 0)).window 0).hold = none ∧
      (mapped .rw (own 0)).checkAccess 0 0x7FFF .read = .performed place := by decide +kernel

theorem witness_WindowWriteTaken :
    (writing.Taken 0 ∧ (writing.window 0).hold = some write) ∧
      (closing.Taken 0 ∧ (closing.window 0).hold = none ∧ closing.checkAccess 0 0 .write = .faulted .closing none) ∧
      (idle.Taken 0 ∧ (idle.window 0).hold = none ∧ idle.checkAccess 0 0 .write = .faulted .unmapped none ∧
        FaultKind.unmapped ≠ .closing ∧ (idle.window 0).fault = none) ∧
      (faulted.Taken 0 ∧ (faulted.window 0).hold = none ∧ faulted.checkAccess 0 0 .write = .faulted .unmapped none ∧
        (faulted.window 0).fault = some ⟨.readOnly, 0xFFFE, some 63, .write, 0xFFFF⟩) ∧
      (mapped .rw (own 0)).Taken 0 ∧ ((mapped .rw (own 0)).window 0).hold = none ∧
      (mapped .rw (own 0)).checkAccess 0 0x7FFF .write = .performed place := by decide +kernel

/-- A delayed access is there to be taken, as the statement writes it. -/
abbrev Behind (s : State) (d : DelayedAccess) : Prop :=
  s.rstLow = false ∧ (s.session 0).state ≠ .down ∧ (s.session 0).prstLow = false ∧ (s.window 0).reading = none ∧
    (s.window 0).hold = none ∧ (s.window 0).delayed = some d

theorem witness_DelayedAccessTaken :
    (Behind (bus { WindowUnit.reset with delayed := some readBehind }) readBehind ∧ readBehind.direction = .read) ∧
      (Behind (bus { WindowUnit.reset with delayed := some writeBehind }) writeBehind ∧
        writeBehind.direction = .write) ∧
      Behind (inState (bus { WindowUnit.reset with delayed := some readBehind }) 0 (.closing true .awaitJob))
        readBehind := by decide +kernel

theorem witness_GrantedAccessCarriedOut :
    let r := granted (bus { WindowUnit.reset with reading := some place }) (.port 0)
    let w := granted writing (.port 0)
    (r.rstLow = false ∧ r.arbiter.array = .held (.port 0) ∧ (r.window 0).reading = some place) ∧
      w.rstLow = false ∧ w.arbiter.array = .held (.port 0) ∧ (w.window 0).hold = some write ∧
      write.place.offset.toNat % 2 = 0 ∧ w.mem.wf = true := by decide +kernel

/-! ## The SRAM Arbiter -/

/-- The arbiter's array, the claims presented and the claims waiting. -/
def arbiting (s : State) (array : ArrayState) (presented waiting : List Claimant) (last : EngineId) : State :=
  s.setArbiter { array := array, presented := presented, waiting := waiting, lastPort := 1, lastEngine := last }

/-- The fetch of a port that is not UP has its claim, as given. -/
def fetchOfDisconnected (array : ArrayState) (presented waiting : List Claimant) : State :=
  arbiting (disconnected.setEngine (.fetching ⟨0, 3, 0, 0⟩)) array presented waiting .scrub

/-- A piece waits for a port's access to the frame scrubbed, as the statement writes it. -/
abbrev PieceWaits (s : State) : Prop :=
  ∃ p f, .port p ∈ s.arbiter.presented ∧ s.scrub.queue.head? = some f ∧
    ((∃ place, (s.window p).reading = some place ∧ place.frame = f) ∨
      ∃ h, (s.window p).hold = some h ∧ h.place.frame = f)

/-- P0's held write of frame 63, which is scrubbed, and the piece are presented. -/
def pieceBehindWrite : State :=
  (arbiting writing .free [.scrub, .port 0] [] .copy).setScrub { queue := [63], phase := .zeroing, pieces := 0 }

theorem witness_ArbiterGrantsByRule :
    (pieceBehindWrite.rstLow = false ∧ PieceWaits pieceBehindWrite) ∧
      (let s := arbiting idle .free [.copy, .port 2, .port 0] [] .copy;
      s.rstLow = false ∧ .port 0 ∈ s.arbiter.presented ∧ Claimant.port 0 ≠ .scrub ∧ s.arbiter.array = .free ∧
        s.arbiter.waiting = []) ∧
      (let s := arbiting idle .free [.copy, .scrub] [] .copy;
        .scrub ∈ s.arbiter.presented ∧ ¬(Claimant.scrub = .scrub ∧ PieceWaits s) ∧ s.arbiter.array = .free ∧
          s.arbiter.waiting = []) ∧
      (let s := arbiting idle (.held (.port 3)) [.copy, .port 1] [.scrub] .copy;
        .copy ∈ s.arbiter.presented ∧ Claimant.copy ≠ .scrub ∧
          (s.arbiter.array ≠ .free ∨ s.arbiter.waiting ≠ [])) ∧
      (let s := arbiting idle .ended [] [.port 0, .copy, .port 1] .copy;
        s.arbiter.array = .ended ∧ .port 0 ∈ s.arbiter.waiting ∧ ∀ q : Port, .port q ∈ s.arbiter.waiting →
          ((0 : Port) - s.arbiter.lastPort - 1).val ≤ (q - s.arbiter.lastPort - 1).val) ∧
      (let s := arbiting idle .ended [] [.copy, .scrub] .copy;
        s.arbiter.array = .ended ∧ (∀ p, .port p ∉ s.arbiter.waiting) ∧ .copy ∈ s.arbiter.waiting ∧
          .scrub ∈ s.arbiter.waiting) ∧
      (let s := arbiting idle .ended [] [.copy] .copy;
        s.arbiter.array = .ended ∧ (∀ p, .port p ∉ s.arbiter.waiting) ∧ .copy ∈ s.arbiter.waiting ∧
          .scrub ∉ s.arbiter.waiting) ∧
      (let s := arbiting idle .ended [] [.scrub] .scrub;
        s.arbiter.array = .ended ∧ (∀ p, .port p ∉ s.arbiter.waiting) ∧ .copy ∉ s.arbiter.waiting ∧
          .scrub ∈ s.arbiter.waiting) ∧
      ((arbiting idle .ended [] [] .copy).arbiter.array = .ended ∧ (arbiting idle .ended [] [] .copy).arbiter.waiting = []) ∧
      (let s := fetchOfDisconnected .free [.copy] [];
        .copy ∈ s.arbiter.presented ∧ s.arbiter.array = .free ∧ s.arbiter.waiting = [] ∧
          s.copy.engine = .fetching ⟨0, 3, 0, 0⟩ ∧ (s.session 0).state ≠ .up) ∧
      (let s := fetchOfDisconnected .ended [] [.copy];
        s.arbiter.array = .ended ∧ .copy ∈ s.arbiter.waiting ∧ s.copy.engine = .fetching ⟨0, 3, 0, 0⟩ ∧
          (s.session 0).state ≠ .up) := by
  have none_waits : ¬PieceWaits (arbiting idle .free [.copy, .scrub] [] .copy) := fun ⟨p, _, h, _⟩ =>
    (by decide +kernel : ∀ q, Claimant.port q ∉ (arbiting idle .free [.copy, .scrub] [] .copy).arbiter.presented) p h
  have waits : PieceWaits pieceBehindWrite :=
    ⟨0, 63, by decide +kernel, by decide +kernel, .inr ⟨write, by decide +kernel, by decide⟩⟩
  repeat' first | decide +kernel | exact waits | exact fun h => none_waits h.2 | apply And.intro

/-! ## The Scrub Engine -/

/-- The scrub queue and the engine's progress, with these frames SCRUBBING. -/
def scrubs (queue : List Frame) (phase : ScrubPhase) (pieces : Nat) : State :=
  { queue.foldl (fun s f => s.setFrame f FrameRecord.reset) idle with scrub := ⟨queue, phase, pieces⟩ }

theorem witness_ScrubPiecesZeroFrame :
    (let s := (scrubs [63] .idle 0).setFrame 63 { FrameRecord.reset with mark := true };
      s.rstLow = false ∧ s.scrub.queue = 63 :: [] ∧ s.scrub.phase = .idle ∧ (s.frame 63).mark = true) ∧
      (let s := scrubs [63, 0] .idle 0;
        s.rstLow = false ∧ s.scrub.queue = 63 :: [0] ∧ s.scrub.phase = .idle ∧ (s.frame 63).mark = false) ∧
      (let s := granted (scrubs [63] .zeroing 15) .scrub;
        s.rstLow = false ∧ s.scrub.queue = 63 :: [] ∧ s.scrub.phase = .zeroing ∧ s.arbiter.array = .held .scrub ∧
          s.scrub.pieces < 16 ∧ s.mem.wf = true ∧ s.scrub.pieces = 15) ∧
      (let s := granted (scrubs [0] .zeroing 14) .scrub;
        s.rstLow = false ∧ s.scrub.queue = 0 :: [] ∧ s.scrub.phase = .zeroing ∧ s.arbiter.array = .held .scrub ∧
          s.scrub.pieces < 16 ∧ s.mem.wf = true ∧ ¬s.scrub.pieces = 15) := by decide +kernel

theorem witness_ScrubDoneFreesOrGrants :
    (let s := scrubs [63, 1] .reporting 16;
      s.rstLow = false ∧ s.scrub.queue = 63 :: [1] ∧ s.scrub.phase = .reporting ∧ (s.frame 63).reservation = none) ∧
      (let s := (scrubs [63] .reporting 16).setFrame 63 (scrubbing (some 3));
        s.rstLow = false ∧ s.scrub.queue = 63 :: [] ∧ s.scrub.phase = .reporting ∧
          (s.frame 63).reservation = some 3) := by decide +kernel

/-! ## The Tick Timer -/

theorem witness_TickLowersAndExpires :
    (idle.rstLow = false ∧ idle.FramesLegal ∧ idle.InboxesLegal) ∧
      (let s := offering (offerOf 63 0 1 .urgent 5 1);
        s.rstLow = false ∧ s.FramesLegal ∧ s.InboxesLegal ∧ (s.frame 63).offer = some (offerOf 63 0 1 .urgent 5 1)) ∧
      (let s := offering (offerOf 63 0 1 .urgent 5 0);
        s.rstLow = false ∧ (s.frame 63).offer = some (offerOf 63 0 1 .urgent 5 0) ∧
          (offerOf 63 0 1 .urgent 5 0).frame = 63 ∧ (offerOf 63 0 1 .urgent 5 0).timeout ≠ 0 ∧
            (offerOf 63 0 1 .urgent 5 0).remaining = 0) ∧
      (∀ o, ((offering (offerOf 63 0 1 .urgent 5 1)).frame 63).offer = some o → o.timeout = 0 ∨ o.remaining ≠ 0) ∧
      ∀ o, ((offering (offerOf 63 0 1 .urgent 0 0)).frame 63).offer = some o → o.timeout = 0 ∨ o.remaining ≠ 0 := by
  and_intros <;> decide +kernel

/-! ## The Copy Engine -/

theorem witness_SelectionTakesNextRing :
    (idle.rstLow = false ∧ idle.copy.engine = .free ∧
        ∀ p, ¬((idle.ring p).state = .active ∧ (idle.session p).state = .up)) ∧
      (let s := ringing 0 3 .active;
        s.rstLow = false ∧ s.copy.engine = .free ∧ ((s.ring 0).state = .active ∧ (s.session 0).state = .up) ∧
          (s.ring 0).config = some ⟨3, 0, 4⟩ ∧ ∀ q, (s.ring q).state = .active ∧ (s.session q).state = .up →
            ((0 : Port) - s.copy.pointer - 1).val ≤ (q - s.copy.pointer - 1).val) := by decide +kernel

/-- The bytes of a descriptor of frame 3: a copy of this many bytes from the start of frame 1 to the start of frame 2. -/
def descriptor (control : Byte) (length : Word) : Memory :=
  Memory.writeBytes [] 0x3000
    [control, 0, lowByte' length, length.extractLsb' 8 8, 1, 0, 0, 0, 2, 0, 0, 0]
where
  lowByte' (w : Word) : Byte := w.extractLsb' 0 8

/-- P0's fetch holds the array, with this descriptor at its head. -/
def fetched (control : Byte) (length : Word) (st : RingState) : State :=
  { granted (fetchingRing st) .copy with mem := descriptor control length }

/-- Bytes and words of the descriptor fetched, as the statement writes them. -/
abbrev byteOf (s : State) (n : Nat) : Byte := s.mem.read ((3 : Frame).val * 4096 + 0 + n)
abbrev wordOf (s : State) (n : Nat) : Word := byteOf s (n + 1) ++ byteOf s n
abbrev Bad (s : State) : Prop :=
  (wordOf s 2).toNat = 0 ∨ 4096 < (wordOf s 2).toNat ∨ 64 ≤ (byteOf s 4).toNat ∨ 64 ≤ (byteOf s 8).toNat ∨
    4096 < (wordOf s 6).toNat + (wordOf s 2).toNat ∨ 4096 < (wordOf s 10).toNat + (wordOf s 2).toNat

/-- A fetch of P0 holds the array and has its descriptor at the start of frame 3. -/
abbrev FetchHolds (s : State) : Prop :=
  s.rstLow = false ∧ s.arbiter.array = .held .copy ∧ s.copy.engine = .fetching ⟨0, 3, 0, 0⟩

/-- The descriptor fetched is valid and names frames 1 and 2. -/
abbrev Valid (s : State) : Prop :=
  FetchHolds s ∧ sel s.copy.owed 0 = false ∧ (wordOf s 0).getLsbD 0 = true ∧ ¬Bad s ∧
    (byteOf s 4).toNat = (1 : Frame).val ∧ (byteOf s 8).toNat = (2 : Frame).val

/-- The job that a valid descriptor forms, as the statement writes it. -/
abbrev jobOf (s : State) : Job :=
  { place := ⟨0, 3, 0, 0⟩, control := wordOf s 0, source := 1, sourceOffset := (wordOf s 6).toNat, sourceGen := byteOf s 5
    dest := 2, destOffset := (wordOf s 10).toNat, destGen := byteOf s 9, length := (wordOf s 2).toNat, done := 0, sum := 0 }

theorem witness_FetchEndValidates :
    (let s := (fetched 0x0F 256 .active).setOwed 0 true;
      FetchHolds s ∧ sel s.copy.owed 0 = true) ∧
      (let s := fetched 0x00 256 .active;
        FetchHolds s ∧ sel s.copy.owed 0 = false ∧ (wordOf s 0).getLsbD 0 = false ∧ (s.ring 0).state = .active) ∧
      (let s := fetched 0x00 256 .stopping;
        FetchHolds s ∧ sel s.copy.owed 0 = false ∧ (wordOf s 0).getLsbD 0 = false ∧ (s.ring 0).state = .stopping) ∧
      (let s := fetched 0x0F 4097 .active;
        FetchHolds s ∧ sel s.copy.owed 0 = false ∧ (wordOf s 0).getLsbD 0 = true ∧ Bad s) ∧
      (let s := fetched 0x0F 4096 .active;
        Valid s ∧ ¬s.ReadRight 0 1) ∧
      (let s := (fetched 0x0F 4096 .active).setFrame 1 (lent 1 0);
        Valid s ∧ s.ReadRight 0 1 ∧ ¬s.WriteRight 0 2) ∧
      (let s := ((fetched 0x0F 4096 .active).setFrame 1 (lent 1 0)).setFrame 2 { own 0 with generation := 1 };
        Valid s ∧ s.ReadRight 0 1 ∧ s.WriteRight 0 2 ∧ (jobOf s).control.getLsbD 3 = true ∧
          ¬((jobOf s).sourceGen = (s.frame 1).generation ∧ (jobOf s).destGen = (s.frame 2).generation)) ∧
      (let s := ((fetched 0x07 4096 .active).setFrame 1 (own 0)).setFrame 2 { own 0 with generation := 1 };
        Valid s ∧ s.ReadRight 0 1 ∧ s.WriteRight 0 2 ∧ s.GenerationsHold (jobOf s)) := by
  and_intros <;> decide +kernel

/-- P0's job waits with its segment granted. -/
abbrev SegmentGranted (s : State) (j : Job) : Prop :=
  s.rstLow = false ∧ s.arbiter.array = .held .copy ∧ s.copy.engine = .waiting j

theorem witness_SegmentBeginTestsRights :
    (let s := inState (copying (.waiting (job 512 256))) 0 (.closing true .awaitJob);
      SegmentGranted s (job 512 256) ∧ ¬(s.session 0).state = .up) ∧
      (let s := (copying (.waiting (job 512 256))).setFrame 1 (own 1);
        SegmentGranted s (job 512 256) ∧ (s.session 0).state = .up ∧ ¬s.ReadRight 0 1) ∧
      (let s := (copying (.waiting (job 512 0))).setFrame 2 (offered (offerOf 2 0 1 .normal 0 0));
        SegmentGranted s (job 512 0) ∧ (s.session 0).state = .up ∧ s.ReadRight 0 1 ∧ ¬s.WriteRight 0 2) ∧
      (let s := (copying (.waiting (job 512 0))).setFrame 2 { own 0 with generation := 9 };
        SegmentGranted s (job 512 0) ∧ (s.session 0).state = .up ∧ s.ReadRight 0 1 ∧ s.WriteRight 0 2 ∧
          (job 512 0).control.getLsbD 3 = true ∧ ¬(job 512 0).destGen = (s.frame 2).generation) ∧
      (let s := copying (.waiting (job 512 256));
        SegmentGranted s (job 512 256) ∧ (s.session 0).state = .up ∧ s.ReadRight 0 1 ∧ s.WriteRight 0 2 ∧
          s.GenerationsHold (job 512 256)) := by
  decide +kernel

/-- P0's segment is in flight, with its marks on. -/
def moving (length done : Nat) : State :=
  ((copying (.transferring (job length done))).setFrame 1 { own 0 with mark := true }).setFrame 2
    { own 0 with mark := true }

/-- The hypotheses of the statement about the end of a segment. -/
abbrev Moves (s : State) (j : Job) : Prop :=
  s.rstLow = false ∧ s.arbiter.array = .held .copy ∧ s.copy.engine = .transferring j ∧ State.Job.Legal j ∧
    s.mem.wf = true ∧ s.ScrubLegal ∧ s.MarksLegal

theorem witness_SegmentEndMovesBytes :
    (Moves ((moving 512 0).setOwed 0 true) (job 512 0) ∧ sel ((moving 512 0).setOwed 0 true).copy.owed 0 = true) ∧
      (Moves (moving 512 0) (job 512 0) ∧ ¬sel (moving 512 0).copy.owed 0 = true ∧ 0 + min 256 (512 - 0) < 512) ∧
      (Moves (moving 257 256) (job 257 256) ∧ ¬sel (moving 257 256).copy.owed 0 = true ∧
        257 ≤ 256 + min 256 (257 - 256)) ∧
      (let s := ((moving 256 0).setFrame 1 { FrameRecord.reset with mark := true }).setScrub ⟨[1], .held, 0⟩;
        Moves s (job 256 0) ∧ s.scrub.phase = .held) := by
  and_intros <;> decide +kernel

/-- P0's job is decided: its write-back, of the last descriptor of a frame. -/
def decided (control : Word) (status : DescStatus) : WriteBack := ⟨⟨0, 3, 4064, 3⟩, control, status, 256, 0x00010100⟩

/-- The hypotheses of the statement about the end of a write-back. -/
abbrev WritesBack (s : State) (w : WriteBack) : Prop :=
  s.rstLow = false ∧ s.arbiter.array = .held .copy ∧ s.copy.engine = .writing w ∧ w.place.offset + 32 ≤ 4096 ∧
    s.mem.wf = true

/-- P0's write-back holds the array, its ring at the last descriptor of frame 3. -/
def writingBack (w : WriteBack) : State := (copying (.writing w)).setRing 0 ⟨.active, some ⟨3, 3968, 4⟩, 3, .ok, false⟩

theorem witness_WriteBackEndWritesDescriptor :
    WritesBack (writingBack (decided 0x0007 .ok)) (decided 0x0007 .ok) ∧
      WritesBack (writingBack (decided 0x0001 .ok)) (decided 0x0001 .ok) ∧
      WritesBack (writingBack (decided 0x000F .accessLost)) (decided 0x000F .accessLost) ∧
      WritesBack ((copying (.writing (decided 0x000F .ok))).setRing 0 Ring.unset) (decided 0x000F .ok) := by
  decide +kernel

/-! ## Events, sessions and teardown -/

theorem witness_EventArrivalPlacesEvents :
    let first : Handover := ⟨.copyEngine, [(0, Event.copyDone 1)]⟩
    let second : Handover := ⟨.directory, [(2, Event.claimGranted 5 1), (3, Event.claimGranted 6 1)]⟩
    (idle.rstLow = false ∧ ∀ h ∈ idle.handovers, h.source ≠ .directory) ∧
      (idle.setHandovers [first, second, first]).rstLow = false ∧
      (idle.setHandovers [first, second, first]).handovers = [first] ++ second :: [first] ∧
      second.source = .directory ∧ ∀ g ∈ [first], g.source ≠ .directory := by decide +kernel

/-- P0 is DOWN, with its PRST# low. -/
def down : State := idle.setSession 0 { idle.session 0 with state := .down, prstLow := true }

theorem witness_PrstChangesSession :
    (idle.rstLow = false ∧ (idle.session 0).prstLow = false ∧ (idle.session 0).state = .up) ∧
      (closing.rstLow = false ∧ (closing.session 0).prstLow = false ∧
        (closing.session 0).state = .closing true .awaitJob) ∧
      (down.rstLow = false ∧ (down.session 0).prstLow = true ∧ (down.session 0).state = .down) ∧
      disconnected.rstLow = false ∧ (disconnected.session 0).prstLow = true ∧
      (disconnected.session 0).state = .closing false .awaitJob := by decide +kernel

theorem witness_ClosingAtEventAndWindowUnits :
    (let s := closing.setSession 0 { closing.session 0 with annEvent := true, annWindow := true };
      s.rstLow = false ∧ (s.session 0).annEvent = true ∧ (s.session 0).peerUp = none ∧
        (s.session 0).annWindow = true) ∧
      (let s := idle.setSession 0 { idle.session 0 with peerUp := some 255 };
        s.rstLow = false ∧ (s.session 0).peerUp ≠ none ∧ (s.session 0).peerUp = some 255) := by decide +kernel

theorem witness_DirectoryClosingSettlesOffers :
    let s := ((offering (offerOf 7 0 1 .normal 0 0)).setFrame 9 (offered (offerOf 9 2 0 .urgent 4 2))).setInbox 0 [9]
    let t := { s with dirMail := [.closing 0] }
    t.rstLow = false ∧ t.dirMail = .closing 0 :: [] ∧ t.FramesLegal ∧ t.InboxesLegal := by decide +kernel

/-- P0 is CLOSING with the announcement on its way to the Copy Engine. -/
def announced (s : State) : State :=
  s.setSession 0 { s.session 0 with state := .closing false .awaitJob, prstLow := true, annCopy := true }

/-- P0's announcement is there for the Copy Engine to take, with the engine in this state and the array so held. -/
abbrev EngineTakes (s : State) (e : EngineState) (holds : Bool) : Prop :=
  s.rstLow = false ∧ (s.session 0).annCopy = true ∧ s.copy.engine = e ∧
    if holds then s.arbiter.array = .held .copy else ¬s.arbiter.array = .held .copy

/-- The engine at a point of P0's job, its claim waiting. -/
def waitingClaim (e : EngineState) : State := arbiting (copying e) (.held .scrub) [] [.copy] .scrub

theorem witness_CopyEngineClosingByPoint :
    (let s := announced idle;
      s.rstLow = false ∧ (s.session 0).annCopy = true ∧ ∀ j ∈ s.copy.engine.place?, j.port ≠ 0) ∧
      (let s := announced (idle.setEngine (.fetching ⟨3, 5, 0, 0⟩));
        s.rstLow = false ∧ (s.session 0).annCopy = true ∧ ∀ j ∈ s.copy.engine.place?, j.port ≠ 0) ∧
      EngineTakes (announced (waitingClaim (.fetching ⟨0, 3, 0, 0⟩))) (.fetching ⟨0, 3, 0, 0⟩) false ∧
      EngineTakes (announced (copying (.fetching ⟨0, 3, 0, 0⟩))) (.fetching ⟨0, 3, 0, 0⟩) true ∧
      EngineTakes (announced (waitingClaim (.waiting (job 512 256)))) (.waiting (job 512 256)) false ∧
      EngineTakes (announced (copying (.waiting (job 512 256)))) (.waiting (job 512 256)) true ∧
      EngineTakes (announced (moving 512 256)) (.transferring (job 512 256)) true ∧
      EngineTakes (announced (waitingClaim (.writing (decided 0x000F .ok)))) (.writing (decided 0x000F .ok)) false ∧
      EngineTakes (announced (copying (.writing (decided 0x000F .ok)))) (.writing (decided 0x000F .ok)) true := by
  decide +kernel

/-- P0's teardown awaits its disposal. -/
def disposing (rejoin : Bool) : State :=
  (idle.setClosingTaken 0 true).setSession 0 { idle.session 0 with
    state := .closing rejoin .awaitDisposal, prstLow := !rejoin, number := 255 }

/-- Every block has taken P0's announcement, as the statement writes it. -/
abbrev Settled (s : State) : Prop :=
  (s.session 0).annEvent = false ∧ (s.session 0).annCommand = false ∧ (s.session 0).annWindow = false ∧
    (s.session 0).annCopy = false ∧ .closing 0 ∉ s.dirMail ∧ .dispose 0 ∉ s.dirMail

theorem witness_TeardownReportsMoveOn :
    (let s := closing.setSession 0 { closing.session 0 with jobGone := true };
      s.rstLow = false ∧ (s.session 0).state = .closing true .awaitJob ∧ (s.session 0).jobGone = true) ∧
      (∀ rejoin, let s := (disposing rejoin).setSession 0 { (disposing rejoin).session 0 with disposalDone := true };
        s.rstLow = false ∧ (s.session 0).state = .closing rejoin .awaitDisposal ∧ (s.session 0).disposalDone = true ∧
          Settled s) ∧
      ¬Settled { disposing true with dirMail := [.dispose 0] } := by decide +kernel

/-- P0's disposal is requested: P1 is the fallback of frame 63, which P2 reads, and frame 9 has none. -/
def disposes : State :=
  { ((disposing true).setFrame 63 { lent 0 2 with fallback := some 1 }).setFrame 9 (own 0) with dirMail := [.dispose 0] }

/-- SPLIT mode: P1 owns fifteen frames and is the fallback of three frames of P0, whose disposal is requested. -/
def disposesAtQuota : State := { disposing false with
  splitQuota := true
  frames := ⟨(List.replicate 15 (own 1) ++ List.replicate 3 { own 0 with fallback := some 1 } ++
    List.replicate 46 free).toArray, by simp⟩
  dirMail := [.dispose 0] }

theorem witness_DisposalPassesOrReleases :
    (disposes.rstLow = false ∧ disposes.dirMail = .dispose 0 :: [] ∧ disposes.dirUp 0 = false ∧ disposes.FramesLegal) ∧
      disposesAtQuota.rstLow = false ∧ disposesAtQuota.dirMail = .dispose 0 :: [] ∧ disposesAtQuota.dirUp 0 = false ∧
      disposesAtQuota.FramesLegal ∧ disposesAtQuota.quotaCount 1 = 15 := by
  and_intros <;> decide +kernel

/-! ## Chip reset -/

theorem witness_RstAssertedAbandonsWork :
    (idle.rstLow = false ∧ idle.mem.wf = true ∧ idle.arbiter.array = .free) ∧
      (let s := granted writing (.port 0);
        s.rstLow = false ∧ s.mem.wf = true ∧ s.arbiter.array = .held (.port 0) ∧
          ∃ t, exec (.writeCarriedOut 0) s = .next t) ∧
      (let s := granted (scrubs [63] .zeroing 15) .scrub;
        s.arbiter.array = .held .scrub ∧ ∃ t, exec .pieceEnd s = .next t) ∧
      (let s := moving 512 0;
        s.arbiter.array = .held .copy ∧ s.copy.engine.segment?.isSome ∧ ∃ t, exec .segmentEnd s = .next t) ∧
      (let s := writingBack (decided 0x000F .ok);
        s.arbiter.array = .held .copy ∧ ¬s.copy.engine.segment?.isSome ∧ ∃ t, exec .writeBackEnd s = .next t) := by
  repeat' first | decide +kernel | exact ⟨_, rfl⟩ | apply And.intro

theorem witness_RisingEdgeGivesResetState : { idle with rstLow := true }.rstLow = true := rfl

/-! ## Invariants -/

/-- P0 copies from frame 1 to frame 2 while a scrub waits, P1 has offered a frame to P2 and lent it another, and P3's
closing has been announced; the segment's end is next. -/
def busy : State :=
  let s := ((moving 512 0).setFrame 7 (offered (offerOf 7 1 2 .urgent 5 3))).setInbox 2 [7]
  let s := ((s.setFrame 9 (lent 1 2)).setFrame 20 (scrubbing (some 1))).setFrame 33 { own 3 with fallback := some 0 }
  let s := s.setSession 3 { s.session 3 with
    state := .closing false .awaitJob, prstLow := true, annEvent := true, annCommand := true, annWindow := true
    annCopy := true }
  { s with
    pending := [.segmentEnd], dirMail := [.closing 3], scrub := ⟨[20], .zeroing, 3⟩
    arbiter := { s.arbiter with waiting := [.scrub] }
    mem := [(0x1000, 0x5A), (0x3FFFF, 0xFF)] }

/-- The next state of a step, or the same where there is none. -/
def stepped (s : State) : State :=
  match step s with
  | .next t => t
  | _ => s

theorem busy_steps : step busy = .next (stepped busy) := rfl

theorem witness_StepKeepsMemoryCanonical : busy.mem.wf = true ∧ step busy = .next (stepped busy) :=
  ⟨by decide +kernel, busy_steps⟩

theorem witness_StepKeepsFrameRecordsAndQuota :
    busy.FramesLegal ∧ step busy = .next (stepped busy) ∧ busy.QuotaKept ∧ atQuota.QuotaKept := by
  repeat' first | exact busy_steps | decide +kernel | apply And.intro

theorem witness_StepKeepsPinsMarksQueuesUnits :
    step busy = .next (stepped busy) ∧ busy.PinsLegal ∧ busy.MarksLegal ∧ busy.QueuesLegal ∧ busy.UnitsLegal ∧
      busy.TimerLegal := by
  refine ⟨busy_steps, ?_⟩
  and_intros <;> decide +kernel

theorem witness_StepKeepsBusesAndClaims : busy.BusesLegal ∧ busy.ClaimsLegal ∧ step busy = .next (stepped busy) :=
  ⟨by decide +kernel, by decide +kernel, busy_steps⟩

theorem busy_directoryLegal : busy.DirectoryLegal := by
  and_intros <;> decide +kernel

theorem busy_closingsLegal : busy.ClosingsLegal := by
  and_intros <;> decide +kernel

theorem witness_StepKeepsDirectory : busy.DirectoryLegal ∧ step busy = .next (stepped busy) :=
  ⟨busy_directoryLegal, busy_steps⟩

theorem witness_StepKeepsTeardownAndJobs : busy.ClosingsLegal ∧ step busy = .next (stepped busy) :=
  ⟨busy_closingsLegal, busy_steps⟩

theorem witness_StepKeepsHoldings :
    busy.DirectoryLegal ∧ busy.ClosingsLegal ∧ step busy = .next (stepped busy) ∧ busy.RingFramesOwned ∧
      busy.HoldingsLegal :=
  ⟨busy_directoryLegal, busy_closingsLegal, busy_steps, by decide +kernel, by decide +kernel⟩

end Sys2Proof.Tests
end

section
/-! SUPPORT. The family of the Frame Directory: what the bodies of CLAIM_ANY, LABEL, FRAME_INFO and DROP give in each of
their cases, and the statements about the four commands, which run those bodies through `takeCommand_replies`. -/

namespace Sys2Proof.Machine

/-! ## CLAIM_ANY (R15) -/

/-- No frame is found exactly where none is FREE. -/
theorem State.lowestFree_eq_none_iff {s : State} : s.lowestFree = none ↔ ∀ f, (s.frame f).state ≠ .free := by
  simp [State.lowestFree, allFrames]

/-- The frame found is the FREE frame that has no FREE frame below it. -/
theorem State.lowestFree_eq_some_iff {s : State} {f : Frame} :
    s.lowestFree = some f ↔ (s.frame f).state = .free ∧ ∀ g, g < f → (s.frame g).state ≠ .free := by
  rw [State.lowestFree, allFrames, ← Fin.find?_eq_find?_finRange, Fin.find?_eq_some_iff]
  simp only [beq_iff_eq, beq_eq_false_iff_ne]

theorem claimAnyBody_quota {s : State} {p : Port} (a : Args) (hq : s.AtQuota p) :
    claimAnyBody s p a = (s, .plain .quota) := by
  simp [claimAnyBody, State.quotaFull_iff.mpr hq]

theorem claimAnyBody_noFree {s : State} {p : Port} (a : Args) (hq : ¬s.AtQuota p) (hl : s.lowestFree = none) :
    claimAnyBody s p a = (s, .plain .noFree) := by
  simp [claimAnyBody, State.quotaFull_false_iff.mpr hq, hl]

theorem claimAnyBody_taken {s : State} {p : Port} {f : Frame} (a : Args) (hq : ¬s.AtQuota p)
    (hl : s.lowestFree = some f) :
    claimAnyBody s p a = (s.setFrame f ((s.frame f).granted p),
      ⟨.ok, BitVec.ofNat 16 f.val, lowByte ((s.frame f).generation + 1), 0, 0⟩) := by
  simp [claimAnyBody, State.quotaFull_false_iff.mpr hq, hl, lowByte_frameField]

/-! ## LABEL (R17) -/

theorem labelBody_badArg {a : Args} (s : State) (p : Port) (h : 64 ≤ a.arg0.toNat) :
    labelBody s p a = (s, .plain .badArg) := by
  simp [labelBody, frameArg_out h]

theorem labelBody_notOwner {s : State} {p : Port} {a : Args} {f : Frame} (hf : a.arg0.toNat = f.val)
    (ho : (s.frame f).owner ≠ some p) : labelBody s p a = (s, .plain .notOwner) := by
  simp [labelBody, frameArg_of_val hf, ho]

theorem labelBody_offered {s : State} {p : Port} {a : Args} {f : Frame} (hf : a.arg0.toNat = f.val)
    (ho : (s.frame f).owner = some p) (hs : (s.frame f).state = .offered) :
    labelBody s p a = (s, .plain .offered) := by
  simp [labelBody, frameArg_of_val hf, ho, hs]

theorem labelBody_ok {s : State} {p : Port} {a : Args} {f : Frame} (hf : a.arg0.toNat = f.val)
    (ho : (s.frame f).owner = some p) (hs : (s.frame f).state ≠ .offered) :
    labelBody s p a = (s.setFrame f { s.frame f with label := a.arg1 }, .plain .ok) := by
  simp [labelBody, frameArg_of_val hf, ho, hs]

/-! ## FRAME_INFO (R19, R202) -/

theorem frameInfoBody_badArg {a : Args} (s : State) (p : Port) (h : 64 ≤ a.arg0.toNat) :
    frameInfoBody s p a = (s, .plain .badArg) := by
  simp [frameInfoBody, frameArg_out h]

theorem frameInfoBody_record {s : State} {p : Port} {a : Args} {f : Frame} (hf : a.arg0.toNat = f.val) :
    frameInfoBody s p a = (s, frameInfoReply (s.frame f)) := by
  simp [frameInfoBody, frameArg_of_val hf]

/-- Bit `q` of the reader set's four bits is whether P`q` is a reader. -/
theorem readerBits_getLsbD (v : Vector Bool 4) (q : Port) : (readerBits v).getLsbD q.val = sel v q := by
  rw [readerBits, BitVec.getLsbD_append, BitVec.getLsbD_append, BitVec.getLsbD_append]
  fin_cases q <;> simp

theorem frameInfoReply_generationBits (r : FrameRecord) :
    (frameInfoReply r).res0.extractLsb' 0 8 = r.generation :=
  append_lowByte _ _

/-- The high byte of RES0: the readers above the mark above the frame state. -/
theorem frameInfoReply_highByte (r : FrameRecord) :
    (frameInfoReply r).res0.extractLsb' 8 8 = readerBits r.readers ++ BitVec.ofBool r.mark ++ r.state.code :=
  append_highByte _ _

/-- A bit of RES0 from bit 8 upward is a bit of its high byte. -/
theorem frameInfoReply_getLsbD (r : FrameRecord) {i : Nat} (hi : i < 8) :
    (frameInfoReply r).res0.getLsbD (8 + i) =
      (readerBits r.readers ++ BitVec.ofBool r.mark ++ r.state.code).getLsbD i := by
  rw [← frameInfoReply_highByte, BitVec.getLsbD_extractLsb']
  simp [hi]

theorem frameInfoReply_stateBits (r : FrameRecord) : (frameInfoReply r).res0.extractLsb' 8 3 = r.state.code := by
  apply BitVec.eq_of_getLsbD_eq
  intro i hi
  rw [BitVec.getLsbD_extractLsb', frameInfoReply_getLsbD r (by omega), BitVec.getLsbD_append]
  simp [hi]

theorem frameInfoReply_markBit (r : FrameRecord) : (frameInfoReply r).res0.getLsbD 11 = r.mark := by
  rw [frameInfoReply_getLsbD r (i := 3) (by omega), BitVec.getLsbD_append, BitVec.getLsbD_append]
  simp

theorem frameInfoReply_readerBit (r : FrameRecord) (q : Port) :
    (frameInfoReply r).res0.getLsbD (12 + q.val) = sel r.readers q := by
  have hi : 12 + q.val = 8 + (4 + q.val) := by omega
  have hstate : ¬4 + q.val < 3 := by omega
  have hmark : ¬4 + q.val - 3 < 1 := by omega
  have hreader : 4 + q.val - 3 - 1 = q.val := by omega
  rw [hi, frameInfoReply_getLsbD r (by omega), BitVec.getLsbD_append, if_neg hstate, BitVec.getLsbD_append,
    if_neg hmark, hreader, readerBits_getLsbD]

/-! ## DROP (R22) -/

theorem dropBody_badArg {a : Args} (s : State) (p : Port) (h : 64 ≤ a.arg0.toNat) :
    dropBody s p a = (s, .plain .badArg) := by
  simp [dropBody, frameArg_out h]

theorem dropBody_notFound {s : State} {p : Port} {a : Args} {f : Frame} (hf : a.arg0.toNat = f.val)
    (hr : sel (s.frame f).readers p = false) : dropBody s p a = (s, .plain .notFound) := by
  simp [dropBody, frameArg_of_val hf, hr]

theorem dropBody_ok {s : State} {p : Port} {a : Args} {f : Frame} (hf : a.arg0.toNat = f.val)
    (hr : sel (s.frame f).readers p = true) :
    dropBody s p a =
      (s.setFrame f { s.frame f with readers := put (s.frame f).readers p false }, .plain .ok) := by
  simp [dropBody, frameArg_of_val hf, hr]

/-! ## The statements -/

/-- Settles O7: each clause is the branch of the body that the quota and the lowest FREE frame select. -/
theorem claimAnyTakesLowestFree : Obligations.ClaimAnyTakesLowestFree := by
  intro s p a k hready
  refine ⟨fun hq => ?_, fun hq hnone => ?_, fun f hq hfree hlow => ?_⟩
  · exact takeCommand_replies hready rfl (claimAnyBody_quota a hq) rfl
  · exact takeCommand_replies hready rfl (claimAnyBody_noFree a hq (State.lowestFree_eq_none_iff.mpr hnone)) rfl
  · have hl : s.lowestFree = some f := State.lowestFree_eq_some_iff.mpr ⟨hfree, hlow⟩
    exact takeCommand_replies hready rfl (claimAnyBody_taken a hq hl) rfl

/-- Settles O9: the checks of LABEL in their order. -/
theorem labelSetsLabel : Obligations.LabelSetsLabel := by
  intro s p a k hready
  refine ⟨fun hout => ?_, fun f hf => ⟨fun ho => ?_, fun ho hs => ?_, fun ho hs => ?_⟩⟩
  · exact takeCommand_replies hready rfl (labelBody_badArg s p hout) rfl
  · exact takeCommand_replies hready rfl (labelBody_notOwner hf ho) rfl
  · exact takeCommand_replies hready rfl (labelBody_offered hf ho hs) rfl
  · exact takeCommand_replies hready rfl (labelBody_ok hf ho hs) rfl

/-- Settles O11: the words are those of `frameInfoReply`, read field by field. -/
theorem frameInfoShowsRecord : Obligations.FrameInfoShowsRecord := by
  intro s p a k hready
  refine ⟨fun hout => takeCommand_replies hready rfl (frameInfoBody_badArg s p hout) rfl, fun f hf => ?_⟩
  have hstate : ((frameInfoReply (s.frame f)).res0.extractLsb' 8 3).toNat = (s.frame f).state.code.toNat :=
    congrArg BitVec.toNat (frameInfoReply_stateBits _)
  refine ⟨_, _, _, _, takeCommand_replies hready rfl (frameInfoBody_record hf) rfl, frameInfoReply_generationBits _,
    hstate.trans ?_, frameInfoReply_markBit _, frameInfoReply_readerBit _, rfl, append_lowByte _ _,
    append_highByte _ _, append_lowByte _ _, append_highByte _ _⟩
  cases (s.frame f).state <;> rfl

/-- Settles O14: the caller is a reader or it is not; no event is handed over on either side. -/
theorem dropLeavesReaderSet : Obligations.DropLeavesReaderSet := by
  intro s p a k hready
  refine ⟨fun hout => ?_, fun f hf => ⟨fun hr => ?_, fun hr => ?_⟩⟩
  · exact takeCommand_replies hready rfl (dropBody_badArg s p hout) rfl
  · exact takeCommand_replies hready rfl (dropBody_notFound hf hr) rfl
  · exact takeCommand_replies hready rfl (dropBody_ok hf hr) rfl

end Sys2Proof.Machine
end

section
/-! SUPPORT. The family of the offer protocol: the offer that a port's inbox holds, what the body of DECLINE gives in each
of its cases, and the statement about the command. -/

namespace Sys2Proof.Machine

/-! ## The offer a port's inbox holds (R57, R60) -/

theorem State.inboxOffer_eq_some_iff {s : State} {p : Port} {f : Frame} {o : Offer} :
    s.inboxOffer p f = some o ↔ f ∈ s.inbox p ∧ (s.frame f).offer = some o ∧ o.recipient = p := by
  simp [State.inboxOffer]

/-- An inbox holds no offer of the frame where the frame is not in it, or the frame's offer is to another port. -/
theorem State.inboxOffer_eq_none_iff {s : State} {p : Port} {f : Frame} :
    s.inboxOffer p f = none ↔ f ∉ s.inbox p ∨ ∀ o, (s.frame f).offer = some o → o.recipient ≠ p := by
  simp only [Option.eq_none_iff_forall_ne_some, ne_eq, State.inboxOffer_eq_some_iff, not_and, ← imp_iff_not_or,
    forall_comm (α := Offer)]

/-! ## DECLINE (R60) -/

theorem declineBody_badArg {a : Args} (s : State) (p : Port) (h : 64 ≤ a.arg0.toNat) :
    declineBody s p a = (s, .plain .badArg) := by
  simp [declineBody, frameArg_out h]

theorem declineBody_notFound {s : State} {p : Port} {a : Args} {f : Frame} (hf : a.arg0.toNat = f.val)
    (hi : s.inboxOffer p f = none) : declineBody s p a = (s, .plain .notFound) := by
  simp [declineBody, frameArg_of_val hf, hi]

/-- The offer is ended and its offerer is told; no quota count is read. -/
theorem declineBody_ok {s : State} {p : Port} {a : Args} {f : Frame} {o : Offer} (hf : a.arg0.toNat = f.val)
    (hi : s.inboxOffer p f = some o) :
    declineBody s p a =
      ((s.endOffer f).withEvents .directory [(o.offerer, Event.offerDeclined p f)], .plain .ok) := by
  simp [declineBody, frameArg_of_val hf, hi, State.handOver_eq]

/-! ## The statement -/

/-- Settles O18: the clauses are the cases of the offer that the caller's inbox holds; where it holds one, the state is
that of the offer's end, which `State.endOffer_some` gives. -/
theorem declineReturnsFrame : Obligations.DeclineReturnsFrame := by
  intro s p a k hready
  refine ⟨fun hout => ?_, fun f hf => ⟨fun hin => ?_, fun hother => ?_, fun o hin hoffer hrec hframe => ?_⟩⟩
  · exact takeCommand_replies hready rfl (declineBody_badArg s p hout) rfl
  · exact takeCommand_replies hready rfl
      (declineBody_notFound hf (State.inboxOffer_eq_none_iff.mpr (.inl hin))) rfl
  · exact takeCommand_replies hready rfl
      (declineBody_notFound hf (State.inboxOffer_eq_none_iff.mpr (.inr hother))) rfl
  · have hbody := declineBody_ok hf (State.inboxOffer_eq_some_iff.mpr ⟨hin, hoffer, hrec⟩)
    rw [State.endOffer_some hoffer, hrec, hframe] at hbody
    exact takeCommand_replies hready rfl hbody rfl

end Sys2Proof.Machine
end

section
/-! SUPPORT. The family of the window translation and the map profiles: what the bodies of MAP_SET, MAP_CLEAR, MAP_READ and
FAULT_CLEAR give in each of their cases, and the statement about the four commands. -/

namespace Sys2Proof.Machine

/-! ## MAP_SET (R80) -/

/-- One argument that names nothing is enough, whatever the others are. -/
theorem mapSetBody_badArg {a : Args} (s : State) (p : Port)
    (h : profileArg a.arg0 = none ∨ slotArg a.arg1 = none ∨ frameArg a.arg2 = none ∨ accessArg a.arg3 = none) :
    mapSetBody s p a = (s, .plain .badArg) := by
  unfold mapSetBody
  split
  case h_1 hprofile hslot hframe haccess => simp [hprofile, hslot, hframe, haccess] at h
  case h_2 => rfl

theorem mapSetBody_ok {a : Args} (s : State) (p : Port) {profile : Fin 4} {slot : Fin 16} {f : Frame} {writable : Bool}
    (hprofile : a.arg0.toNat = profile.val) (hslot : a.arg1.toNat = slot.val) (hframe : a.arg2.toNat = f.val)
    (haccess : a.arg3.toNat = writable.toNat) :
    mapSetBody s p a =
      (s.setWindow p ((s.window p).setEntry profile slot (some ⟨f, if writable then .rw else .ro⟩)), .plain .ok) := by
  simp [mapSetBody, profileArg_of_val hprofile, slotArg_of_val hslot, frameArg_of_val hframe,
    accessArg_of_toNat haccess]

/-! ## MAP_CLEAR (R81) -/

theorem mapClearBody_badArg {a : Args} (s : State) (p : Port)
    (h : profileArg a.arg0 = none ∨ slotArg a.arg1 = none) : mapClearBody s p a = (s, .plain .badArg) := by
  unfold mapClearBody
  split
  case h_1 hprofile hslot => simp [hprofile, hslot] at h
  case h_2 => rfl

theorem mapClearBody_ok {a : Args} (s : State) (p : Port) {profile : Fin 4} {slot : Fin 16}
    (hprofile : a.arg0.toNat = profile.val) (hslot : a.arg1.toNat = slot.val) :
    mapClearBody s p a = (s.setWindow p ((s.window p).setEntry profile slot none), .plain .ok) := by
  simp [mapClearBody, profileArg_of_val hprofile, slotArg_of_val hslot]

/-! ## MAP_READ (R82, R202) -/

theorem mapReadBody_badArg {a : Args} (s : State) (p : Port)
    (h : profileArg a.arg0 = none ∨ slotArg a.arg1 = none) : mapReadBody s p a = (s, .plain .badArg) := by
  unfold mapReadBody
  split
  case h_1 hprofile hslot => simp [hprofile, hslot] at h
  case h_2 => rfl

theorem mapReadBody_entry {a : Args} (s : State) (p : Port) {profile : Fin 4} {slot : Fin 16}
    (hprofile : a.arg0.toNat = profile.val) (hslot : a.arg1.toNat = slot.val) :
    mapReadBody s p a = (s, mapReadReply (sel (sel (s.window p).profiles profile) slot)) := by
  simp [mapReadBody, profileArg_of_val hprofile, slotArg_of_val hslot, WindowUnit.entry]

/-- An invalid entry shows FFh for its frame. -/
theorem mapReadReply_none : mapReadReply none = ⟨.ok, 0x0000, 0x00FF, 0x0000, 0x0000⟩ := rfl

/-- A valid entry shows its frame's number and its access. -/
theorem mapReadReply_some (e : SlotEntry) :
    mapReadReply (some e) =
      ⟨.ok, 0x0001, BitVec.ofNat 16 e.frame.val, if e.access = .rw then 0x0001 else 0x0000, 0x0000⟩ := by
  simp [mapReadReply, lowByte_frameField, flagWord]

/-! ## The statement -/

/-- Settles O20: each clause is the branch of the body that the arguments select; MAP_READ's words differ by whether the
entry is valid, and FAULT_CLEAR reads no argument. -/
theorem windowUnitCommands : Obligations.WindowUnitCommands := by
  intro s p a k
  refine ⟨fun hready => ⟨fun hout => ?mapSetOut, fun profile slot f writable hprofile hslot hframe haccess => ?mapSet⟩,
    fun hready => ⟨fun hout => ?mapClearOut, fun profile slot hprofile hslot => ?mapClear⟩,
    fun hready => ⟨fun hout => ?mapReadOut, fun profile slot hprofile hslot =>
      ⟨fun hinvalid => ?mapReadInvalid, fun e hvalid => ?mapReadValid⟩⟩,
    fun hready => ?faultClear⟩
  case mapSetOut =>
    have hnone := hout.imp profileArg_out (Or.imp slotArg_out (Or.imp frameArg_out accessArg_out))
    exact takeCommand_replies hready rfl (mapSetBody_badArg s p hnone) rfl
  case mapSet => exact takeCommand_replies hready rfl (mapSetBody_ok s p hprofile hslot hframe haccess) rfl
  case mapClearOut =>
    exact takeCommand_replies hready rfl (mapClearBody_badArg s p (hout.imp profileArg_out slotArg_out)) rfl
  case mapClear => exact takeCommand_replies hready rfl (mapClearBody_ok s p hprofile hslot) rfl
  case mapReadOut =>
    exact takeCommand_replies hready rfl (mapReadBody_badArg s p (hout.imp profileArg_out slotArg_out)) rfl
  case mapReadInvalid =>
    have hbody := mapReadBody_entry s p hprofile hslot
    rw [hinvalid, mapReadReply_none] at hbody
    exact takeCommand_replies hready rfl hbody rfl
  case mapReadValid =>
    have hbody := mapReadBody_entry s p hprofile hslot
    rw [hvalid, mapReadReply_some] at hbody
    exact takeCommand_replies hready rfl hbody rfl
  case faultClear => exact takeCommand_replies hready rfl (body := faultClearBody) rfl rfl

end Sys2Proof.Machine
end

section
/-! SUPPORT. The family of the commands and the control space: the block that comes to take a pending command, the
discarding of one whose port is not UP, and the statement about both ways of it. -/

namespace Sys2Proof.Machine

/-! ## The block that takes a command, by its code (R153, R155) -/

/-- Every row in which an owning block takes a command is the taking of the command with that row's code. -/
theorem exec_ownerRow :
    ∀ row ∈ ownerRows, ∃ body : State → Port → Args → State × Reply, ∀ (p : Port) (s : State),
      exec (row.2 p) s = whileRunning s fun s => s.takeCommand p (· == row.1) body := by
  intro row hrow
  fin_cases hrow
  all_goals exact ⟨_, fun _ _ => rfl⟩

/-- The codes that the Command Unit knows are those of the rows with an owning block. -/
theorem knownCodes_eq_ownerRows : knownCodes = ownerRows.map Prod.fst := rfl

theorem unknownCode_iff {c : Byte} : unknownCode c = true ↔ ∀ row ∈ ownerRows, row.1 ≠ c := by
  simp only [unknownCode, knownCodes_eq_ownerRows, Bool.not_eq_true', ← Bool.not_eq_true, List.contains_iff_mem,
    List.mem_map, not_exists, not_and, ne_eq]

/-! ## The discarding (R160) -/

/-- The block that owns a pending command finds the port not UP: the command is discarded, and its body does not run. -/
theorem takeCommand_discards {s : State} {p : Port} {k : PendingCommand} (hrst : s.rstLow = false)
    (hup : (s.session p).state ≠ .up) (hk : (s.command p).pendingCmd = some k) {owns : Byte → Bool}
    (ho : owns k.code = true) (body : State → Port → Args → State × Reply) :
    whileRunning s (fun s => s.takeCommand p owns body) =
      .next (s.setCommand p { s.command p with
        pendingCmd := none, result := .closing, res0 := 0, res1 := 0, res2 := 0, res3 := 0 }) := by
  have hnot : ¬s.isUp p = true := State.isUp_iff.not.mpr hup
  rw [whileRunning_high hrst, ← State.discard_eq hk]
  simp [State.takeCommand, hk, ho, hnot]

/-- The Command Unit takes the announcement of a closing. -/
theorem exec_commandUnitClosing_announced {s : State} {p : Port} (hrst : s.rstLow = false)
    (hann : (s.session p).annCommand = true) :
    exec (.commandUnitClosing p) s = .next ((s.discard p).setSession p { s.session p with annCommand := false }) := by
  have hexec : exec (.commandUnitClosing p) s = execCommandUnitClosing p s := rfl
  rw [hexec, execCommandUnitClosing, whileRunning_high hrst, if_pos hann]

/-! ## The statement -/

/-- Settles O5: an owning block, or the Command Unit for a code without one, discards by `takeCommand_discards`; the
announcement discards what is still pending by `State.discard_eq`, and finds nothing by `State.discard_none`. -/
theorem commandOfClosingPortDiscarded : Obligations.CommandOfClosingPortDiscarded := by
  intro s p hrst
  refine ⟨fun k hup hk => ⟨fun row hrow hcode => ?owned, fun hcode => ?unknown⟩, fun hann hnone => ?announcedNone,
    fun hann hpending => ?announcedPending⟩
  case owned =>
    obtain ⟨body, hexec⟩ := exec_ownerRow row hrow
    rw [hexec]
    exact takeCommand_discards hrst hup hk (by simp [hcode]) body
  case unknown => exact takeCommand_discards hrst hup hk (unknownCode_iff.mpr hcode) unknownBody
  case announcedNone => rw [exec_commandUnitClosing_announced hrst hann, State.discard_none hnone]; rfl
  case announcedPending =>
    obtain ⟨k, hk⟩ := Option.ne_none_iff_exists'.mp hpending
    rw [exec_commandUnitClosing_announced hrst hann, State.discard_eq hk]
    rfl

end Sys2Proof.Machine
end

section
/-! SUPPORT. What each command can change: the parts of the state that the invariants read, the parts that each shared
operation and each command writes, and the rule by which a condition on other parts is kept. -/

namespace Sys2Proof.Machine

/-! ## Parts of the state -/

/-- The fields of a frame record that the invariants read. -/
inductive FrameField where
  | state | owner | readers | fallback | offer | reservation | mark
  deriving DecidableEq

/-- The fields of a window unit that the invariants read: its registers together, and its bus. -/
inductive WindowField where
  | registers | hold | reading | delayed
  deriving DecidableEq

/-- The fields of a session record that the invariants read. -/
inductive SessionField where
  | state | prstLow | annEvent | annWindow | annCopy | jobGone | disposalDone
  deriving DecidableEq

/-- The parts of the state that the invariants read, and the queue of commands. -/
inductive Part where
  | pending | rstLow | splitQuota | mem | inboxes | closingTaken | dirMail | scrubQueue | scrubPhase | tickCount
  | rings | engine | owed | queues | arbiter
  | frame (k : FrameField)
  | window (k : WindowField)
  | session (k : SessionField)
  deriving DecidableEq

/-- Two frame records agree on a field. -/
def FrameField.Same (r r' : FrameRecord) : FrameField → Prop
  | .state => r'.state = r.state
  | .owner => r'.owner = r.owner
  | .readers => r'.readers = r.readers
  | .fallback => r'.fallback = r.fallback
  | .offer => r'.offer = r.offer
  | .reservation => r'.reservation = r.reservation
  | .mark => r'.mark = r.mark

/-- Two window units agree on a field. -/
def WindowField.Same (w w' : WindowUnit) : WindowField → Prop
  | .registers => w'.profiles = w.profiles ∧ w'.active = w.active ∧ w'.fault = w.fault
  | .hold => w'.hold = w.hold
  | .reading => w'.reading = w.reading
  | .delayed => w'.delayed = w.delayed

/-- Two session records agree on a field. -/
def SessionField.Same (r r' : SessionRecord) : SessionField → Prop
  | .state => r'.state = r.state
  | .prstLow => r'.prstLow = r.prstLow
  | .annEvent => r'.annEvent = r.annEvent
  | .annWindow => r'.annWindow = r.annWindow
  | .annCopy => r'.annCopy = r.annCopy
  | .jobGone => r'.jobGone = r.jobGone
  | .disposalDone => r'.disposalDone = r.disposalDone

/-- Two states agree on a part. -/
def Part.Same (s t : State) : Part → Prop
  | .pending => t.pending = s.pending
  | .rstLow => t.rstLow = s.rstLow
  | .splitQuota => t.splitQuota = s.splitQuota
  | .mem => t.mem = s.mem
  | .inboxes => t.inboxes = s.inboxes
  | .closingTaken => t.closingTaken = s.closingTaken
  | .dirMail => t.dirMail = s.dirMail
  | .scrubQueue => t.scrub.queue = s.scrub.queue
  | .scrubPhase => t.scrub.phase = s.scrub.phase ∧ t.scrub.pieces = s.scrub.pieces
  | .tickCount => t.tickCount = s.tickCount
  | .rings => t.copy.rings = s.copy.rings
  | .engine => t.copy.engine = s.copy.engine
  | .owed => t.copy.owed = s.copy.owed
  | .queues => t.queues = s.queues
  | .arbiter => t.arbiter = s.arbiter
  | .frame k => ∀ f, k.Same (s.frame f) (t.frame f)
  | .window k => ∀ p, k.Same (s.window p) (t.window p)
  | .session k => ∀ p, k.Same (s.session p) (t.session p)

theorem FrameField.same_refl (k : FrameField) (r : FrameRecord) : k.Same r r := by cases k <;> rfl

theorem WindowField.same_refl (k : WindowField) (w : WindowUnit) : k.Same w w := by
  cases k <;> simp [WindowField.Same]

theorem SessionField.same_refl (k : SessionField) (r : SessionRecord) : k.Same r r := by cases k <;> rfl

theorem FrameField.Same.trans {k : FrameField} {r r' r'' : FrameRecord} (h : k.Same r r') (h' : k.Same r' r'') :
    k.Same r r'' := by
  cases k <;> exact Eq.trans h' h

theorem WindowField.Same.trans {k : WindowField} {w w' w'' : WindowUnit} (h : k.Same w w') (h' : k.Same w' w'') :
    k.Same w w'' := by
  cases k <;> simp_all [WindowField.Same]

theorem SessionField.Same.trans {k : SessionField} {r r' r'' : SessionRecord} (h : k.Same r r') (h' : k.Same r' r'') :
    k.Same r r'' := by
  cases k <;> exact Eq.trans h' h

theorem Part.same_refl (x : Part) (s : State) : x.Same s s := by
  cases x
  case frame k => exact fun _ => k.same_refl _
  case window k => exact fun _ => k.same_refl _
  case session k => exact fun _ => k.same_refl _
  case scrubPhase => exact ⟨rfl, rfl⟩
  all_goals rfl

/-- Agreement that holds by unfolding the update. -/
theorem Part.same_of_refl {x : Part} {s t : State} (h : x.Same s t = x.Same s s) : x.Same s t :=
  h.mpr (x.same_refl s)

theorem FrameField.same_of_refl {k : FrameField} {r r' : FrameRecord} (h : k.Same r r' = k.Same r r) : k.Same r r' :=
  h.mpr (k.same_refl r)

theorem WindowField.same_of_refl {k : WindowField} {w w' : WindowUnit} (h : k.Same w w' = k.Same w w) : k.Same w w' :=
  h.mpr (k.same_refl w)

theorem SessionField.same_of_refl {k : SessionField} {r r' : SessionRecord} (h : k.Same r r' = k.Same r r) :
    k.Same r r' :=
  h.mpr (k.same_refl r)

theorem Part.Same.trans {x : Part} {s t u : State} (h : x.Same s t) (h' : x.Same t u) : x.Same s u := by
  cases x
  case frame k => exact fun f => (h f).trans (h' f)
  case window k => exact fun p => (h p).trans (h' p)
  case session k => exact fun p => (h p).trans (h' p)
  case scrubPhase => exact ⟨h'.1.trans h.1, h'.2.trans h.2⟩
  all_goals exact Eq.trans h' h

/-! ## Changes and conditions -/

/-- At most the parts listed differ between two states. -/
structure State.Changes (s t : State) (l : List Part) : Prop where
  same_of_notMem : ∀ x, x ∉ l → x.Same s t

/-- The two lists of parts share none. -/
def partsApart (l l' : List Part) : Bool := l.all fun x => !l'.contains x

/-- The condition reads the parts listed and no others. -/
def ReadsOnly (P : State → Prop) (l : List Part) : Prop := ∀ s t : State, (∀ x ∈ l, x.Same s t) → P s → P t

theorem State.Changes.refl (s : State) (l : List Part) : s.Changes s l := ⟨fun x _ => x.same_refl s⟩

theorem State.Changes.mono {s t : State} {l l' : List Part} (h : s.Changes t l) (hl : l ⊆ l') : s.Changes t l' :=
  ⟨fun x hx => h.same_of_notMem x fun hm => hx (hl hm)⟩

theorem State.Changes.trans {s t u : State} {l l' : List Part} (h : s.Changes t l) (h' : t.Changes u l') :
    s.Changes u (l ++ l') :=
  ⟨fun x hx => (h.same_of_notMem x fun hm => hx (List.mem_append_left _ hm)).trans
    (h'.same_of_notMem x fun hm => hx (List.mem_append_right _ hm))⟩

/-- What a change leaves alone. -/
theorem State.Changes.same {s t : State} {l : List Part} (h : s.Changes t l) (x : Part)
    (hx : l.contains x = false) : x.Same s t :=
  h.same_of_notMem x (by simpa using hx)

/-- A change of other parts keeps a condition. -/
theorem ReadsOnly.keep {P : State → Prop} {l l' : List Part} (hP : ReadsOnly P l) {s t : State} (h : s.Changes t l')
    (hl : partsApart l l' = true) (hs : P s) : P t := by
  refine hP s t (fun x hx => h.same_of_notMem x fun hm => ?_) hs
  have hnot := List.all_eq_true.mp hl x hx
  simp at hnot
  exact hnot hm

theorem ReadsOnly.and {P Q : State → Prop} {l l' : List Part} (hP : ReadsOnly P l) (hQ : ReadsOnly Q l') :
    ReadsOnly (fun s => P s ∧ Q s) (l ++ l') := fun s t h hs =>
  ⟨hP s t (fun x hx => h x (List.mem_append_left _ hx)) hs.1,
    hQ s t (fun x hx => h x (List.mem_append_right _ hx)) hs.2⟩

/-! ## The updates -/

section

variable (s : State)

/-- An update of one frame record changes the fields in which the new record differs. -/
theorem State.setFrame_changes (f : Frame) (r : FrameRecord) (l : List Part)
    (h : ∀ k, Part.frame k ∉ l → k.Same (s.frame f) r) : s.Changes (s.setFrame f r) l := by
  refine ⟨fun x hx => ?_⟩
  cases x
  case frame k =>
    intro g
    rw [State.setFrame_frame]
    split
    · subst g; exact h k hx
    · exact k.same_refl _
  all_goals exact Part.same_of_refl rfl

theorem State.setWindow_changes (p : Port) (w : WindowUnit) (l : List Part)
    (h : ∀ k, Part.window k ∉ l → k.Same (s.window p) w) : s.Changes (s.setWindow p w) l := by
  refine ⟨fun x hx => ?_⟩
  cases x
  case window k =>
    intro q
    rw [State.setWindow_window]
    split
    · subst q; exact h k hx
    · exact k.same_refl _
  all_goals exact Part.same_of_refl rfl

theorem State.setSession_changes (p : Port) (r : SessionRecord) (l : List Part)
    (h : ∀ k, Part.session k ∉ l → k.Same (s.session p) r) : s.Changes (s.setSession p r) l := by
  refine ⟨fun x hx => ?_⟩
  cases x
  case session k =>
    intro q
    rw [State.setSession_session]
    split
    · subst q; exact h k hx
    · exact k.same_refl _
  all_goals exact Part.same_of_refl rfl

/-- A record that keeps each entry's fields outside the list is a change of the list's fields. -/
theorem State.frames_changes (v : Vector FrameRecord 64) (l : List Part)
    (h : ∀ k, Part.frame k ∉ l → ∀ f, k.Same (s.frame f) (sel v f)) : s.Changes (s.setFrames v) l := by
  refine ⟨fun x hx => ?_⟩
  cases x
  case frame k => exact h k hx
  all_goals exact Part.same_of_refl rfl

/-- One part alone is updated: every other part is as it was. -/
theorem State.Changes.single {s t : State} {y : Part} (h : ∀ x, x ≠ y → x.Same s t) : s.Changes t [y] :=
  ⟨fun x hx => h x (by simpa using hx)⟩

theorem State.setPending_changes (l : List Instr) : s.Changes (s.setPending l) [.pending] :=
  .single fun x hx => by cases x <;> first | exact absurd rfl hx | exact Part.same_of_refl rfl

end

end Sys2Proof.Machine
end

section
/-! SUPPORT. The parts that each update of the state and each shared operation writes. -/

namespace Sys2Proof.Machine

section

variable (s : State)

theorem State.setInbox_changes (p : Port) (l : List Frame) : s.Changes (s.setInbox p l) [.inboxes] :=
  .single fun x hx => by cases x <;> first | exact absurd rfl hx | exact Part.same_of_refl rfl

theorem State.setMem_changes (m : Memory) : s.Changes (s.setMem m) [.mem] :=
  .single fun x hx => by cases x <;> first | exact absurd rfl hx | exact Part.same_of_refl rfl

theorem State.setClosingTaken_changes (p : Port) (b : Bool) : s.Changes (s.setClosingTaken p b) [.closingTaken] :=
  .single fun x hx => by cases x <;> first | exact absurd rfl hx | exact Part.same_of_refl rfl

theorem State.setDirMail_changes (l : List DirMail) : s.Changes (s.setDirMail l) [.dirMail] :=
  .single fun x hx => by cases x <;> first | exact absurd rfl hx | exact Part.same_of_refl rfl

theorem State.setTickCount_changes (n : Nat) : s.Changes (s.setTickCount n) [.tickCount] :=
  .single fun x hx => by cases x <;> first | exact absurd rfl hx | exact Part.same_of_refl rfl

theorem State.setRing_changes (p : Port) (g : Ring) : s.Changes (s.setRing p g) [.rings] :=
  .single fun x hx => by cases x <;> first | exact absurd rfl hx | exact Part.same_of_refl rfl

theorem State.setEngine_changes (e : EngineState) : s.Changes (s.setEngine e) [.engine] :=
  .single fun x hx => by cases x <;> first | exact absurd rfl hx | exact Part.same_of_refl rfl

theorem State.setOwed_changes (p : Port) (b : Bool) : s.Changes (s.setOwed p b) [.owed] :=
  .single fun x hx => by cases x <;> first | exact absurd rfl hx | exact Part.same_of_refl rfl

theorem State.setQueue_changes (p : Port) (q : EventPort) : s.Changes (s.setQueue p q) [.queues] :=
  .single fun x hx => by cases x <;> first | exact absurd rfl hx | exact Part.same_of_refl rfl

theorem State.setArbiter_changes (b : Arbiter) : s.Changes (s.setArbiter b) [.arbiter] :=
  .single fun x hx => by cases x <;> first | exact absurd rfl hx | exact Part.same_of_refl rfl

theorem State.setScrub_changes (e : ScrubEngine) : s.Changes (s.setScrub e) [.scrubQueue, .scrubPhase] := by
  refine ⟨fun x hx => ?_⟩
  cases x <;> first | exact absurd (by decide) hx | exact Part.same_of_refl rfl

theorem State.setScrubPhase_changes (phase : ScrubPhase) (n : Nat) :
    s.Changes (s.setScrub { s.scrub with phase := phase, pieces := n }) [.scrubPhase] :=
  .single fun x hx => by cases x <;> first | exact absurd rfl hx | exact Part.same_of_refl rfl

theorem State.setScrubQueue_changes (l : List Frame) :
    s.Changes (s.setScrub { s.scrub with queue := l }) [.scrubQueue] :=
  .single fun x hx => by cases x <;> first | exact absurd rfl hx | exact Part.same_of_refl rfl

theorem State.setPointer_changes (p : Port) : s.Changes (s.setPointer p) [] := by
  refine ⟨fun x _ => ?_⟩
  cases x <;> exact Part.same_of_refl rfl

theorem State.setHandovers_changes (l : List Handover) : s.Changes (s.setHandovers l) [] := by
  refine ⟨fun x _ => ?_⟩
  cases x <;> exact Part.same_of_refl rfl

theorem State.setCommand_changes (p : Port) (c : CommandBlock) : s.Changes (s.setCommand p c) [] := by
  refine ⟨fun x _ => ?_⟩
  cases x <;> exact Part.same_of_refl rfl

end

/-! ## The shared operations -/

/-- The fields of a frame record that a frame's giving up and passing write. -/
def holdingParts : List Part := [.frame .state, .frame .owner, .frame .readers, .frame .fallback, .frame .offer]

/-- The parts that the end of a job writes. -/
def jobEndParts : List Part := [.engine, .owed, .session .jobGone]

/-- The parts of a window unit. -/
def windowParts : List Part := [.window .registers, .window .hold, .window .reading, .window .delayed]

section

variable (s : State)

theorem State.handOver_changes (source : Producer) (l : List (Port × EventRecord)) :
    s.Changes (s.handOver source l) [] := by
  obtain ⟨v, hv⟩ := s.handOver_rest source l
  rw [hv]
  exact s.setHandovers_changes v

theorem State.discard_changes (p : Port) : s.Changes (s.discard p) [] := by
  unfold State.discard
  dsimp only
  split
  · exact s.setCommand_changes ..
  · exact .refl ..

/-- A command changes what its block's body changes: an answer and a discarding write the command block alone. -/
theorem State.takeCommand_changes {p : Port} {owns : Byte → Bool} {body : State → Port → Args → State × Reply}
    {l : List Part} (h : ∀ a, s.Changes (body s p a).1 l) : s.Changes (s.takeCommand p owns body) l := by
  rcases s.takeCommand_cases p owns body with ⟨he, -⟩ | ⟨k, -, -, -, he⟩ | ⟨k, -, -, -, he⟩ <;> rw [he]
  · exact .refl ..
  · exact ((h k.args).trans (State.setCommand_changes ..)).mono (by simp)
  · exact (s.discard_changes p).mono (List.nil_subset _)

theorem State.present_changes (c : Claimant) : s.Changes (s.present c) [.arbiter] := s.setArbiter_changes _

theorem State.withdrawClaim_changes (c : Claimant) : s.Changes (s.withdrawClaim c) [.arbiter] := s.setArbiter_changes _

theorem State.endGrant_changes : s.Changes s.endGrant [.arbiter] := s.setArbiter_changes _

theorem State.sendToScrub_changes (f : Frame) : s.Changes (s.sendToScrub f) (holdingParts ++ [.scrubQueue]) :=
  (s.setFrame_changes f _ holdingParts fun k hk => by
    cases k <;> first | exact absurd (by decide) hk | exact FrameField.same_of_refl rfl).trans
    (State.setScrubQueue_changes (s.setFrame f _) _)

theorem State.endOffer_changes (f : Frame) : s.Changes (s.endOffer f) [.frame .state, .frame .offer, .inboxes] := by
  cases ho : (s.frame f).offer with
  | none => rw [State.endOffer_none ho]; exact .refl ..
  | some o =>
    rw [State.endOffer_some ho]
    refine (s.setFrame_changes f _ [.frame .state, .frame .offer] fun k hk => ?_).trans (State.setInbox_changes ..)
    cases k <;> first | exact absurd (by decide) hk | exact FrameField.same_of_refl rfl

theorem State.takeHead_changes : s.Changes s.takeHead [.scrubPhase, .arbiter] := by
  unfold State.takeHead
  split
  · exact (s.setScrubPhase_changes _ _).mono (by decide)
  · split
    · exact (s.setScrubPhase_changes _ _).mono (by decide)
    · exact (s.setScrubPhase_changes _ _).trans (State.present_changes _ _)

theorem State.wakeHeld_changes : s.Changes s.wakeHeld [.scrubPhase, .arbiter] := by
  unfold State.wakeHeld
  split
  · exact s.takeHead_changes
  · exact .refl ..

theorem State.enterClosing_changes (p : Port) (rejoin : Bool) : s.Changes (s.enterClosing p rejoin)
    [.session .state, .session .annEvent, .session .annWindow, .session .annCopy, .dirMail] := by
  refine (s.setSession_changes p _
    [.session .state, .session .annEvent, .session .annWindow, .session .annCopy] fun k hk => ?_).trans
    (State.setDirMail_changes ..)
  cases k <;> first | exact absurd (by decide) hk | exact SessionField.same_of_refl rfl

theorem State.enterUp_changes (p : Port) : s.Changes (s.enterUp p) [.session .state, .closingTaken] := by
  refine ((s.setSession_changes p _ [.session .state] fun k hk => ?_).trans (State.setClosingTaken_changes ..)).trans
    (State.setHandovers_changes ..)
  cases k <;> first | exact absurd (by decide) hk | exact SessionField.same_of_refl rfl

theorem State.arriveAll_changes (l : List (Port × EventRecord)) : s.Changes (s.arriveAll l) [.queues] := by
  obtain ⟨v, hv⟩ := s.arriveAll_rest l
  rw [hv]
  refine ⟨fun x hx => ?_⟩
  cases x <;> first | exact absurd (by decide) hx | exact Part.same_of_refl rfl

theorem State.setJobGone_changes (p : Port) (b : Bool) :
    s.Changes (s.setSession p { s.session p with jobGone := b }) [.session .jobGone] := by
  refine s.setSession_changes p _ _ fun k hk => ?_
  cases k <;> first | exact absurd (by decide) hk | exact SessionField.same_of_refl rfl

theorem State.finishJob_changes (p : Port) : s.Changes (s.finishJob p) jobEndParts := by
  unfold State.finishJob
  dsimp only
  split
  · exact ((s.setEngine_changes _).trans (State.setOwed_changes _ _ _)).trans
      (State.setJobGone_changes ((s.setEngine .free).setOwed p false) p true)
  · exact (s.setEngine_changes _).mono (by decide)

theorem State.request_changes (e : EngineState) : s.Changes (s.request e) [.engine, .arbiter] :=
  (s.setEngine_changes e).trans (State.present_changes _ _)

theorem State.validate_changes (j : JobPlace) (d : Descriptor) : s.Changes (s.validate j d) [.engine, .arbiter] := by
  unfold State.validate
  repeat' split
  all_goals exact s.request_changes _

theorem State.setMark_changes (f : Frame) (on : Bool) :
    s.Changes (s.setFrame f { s.frame f with mark := on }) [.frame .mark] := by
  refine s.setFrame_changes f _ _ fun k hk => ?_
  cases k <;> first | exact absurd (by decide) hk | exact FrameField.same_of_refl rfl

theorem State.setMarks_changes (j : Job) (on : Bool) : s.Changes (s.setMarks j on) [.frame .mark] :=
  ((s.setMark_changes j.source on).trans (State.setMark_changes _ j.dest on)).mono (by decide)

theorem State.afterSegment_changes (j : Job) : s.Changes (s.afterSegment j) (jobEndParts ++ [.arbiter]) := by
  unfold State.afterSegment
  split
  · exact (s.finishJob_changes _).mono (by decide)
  · split
    all_goals exact (s.request_changes _).mono (by decide)

theorem State.closeJob_changes (p : Port) : s.Changes (s.closeJob p) (jobEndParts ++ [.arbiter]) := by
  unfold State.closeJob
  split
  · split
    · exact (s.setOwed_changes p true).mono (by decide)
    · dsimp only
      split
      · exact ((s.endGrant_changes.trans (State.setOwed_changes _ p true)).trans
          (State.finishJob_changes _ p)).mono (by decide)
      · exact (((s.withdrawClaim_changes _).trans (State.setOwed_changes _ p true)).trans
          (State.finishJob_changes _ p)).mono (by decide)
    · split
      · exact (s.setOwed_changes p true).mono (by decide)
      · exact (((s.withdrawClaim_changes _).trans (State.setOwed_changes _ p true)).trans
          (State.finishJob_changes _ p)).mono (by decide)
  · exact (s.setJobGone_changes p true).mono (by decide)

theorem State.grantClaim_changes (c : Claimant) :
    s.Changes (s.grantClaim c) (jobEndParts ++ [.rings, .arbiter]) := by
  unfold State.grantClaim
  dsimp only
  split
  · split
    · exact (s.setArbiter_changes _).mono (by decide)
    · exact ((((s.setArbiter_changes _).trans (State.setRing_changes ..)).trans (State.finishJob_changes ..)).trans
        (State.endGrant_changes _)).mono (by decide)
  · exact (s.setArbiter_changes _).mono (by decide)

/-! ### The window buses -/

theorem State.recordFault_changes (p : Port) (kind : FaultKind) (addr : Word) (f : Option Frame) (dir : Direction) :
    s.Changes (s.recordFault p kind addr f dir) [.window .registers] := by
  have hset : s.Changes (s.setWindow p { s.window p with
      fault := some (FaultRecord.noted (s.window p).fault kind addr f dir) }) [.window .registers] := by
    refine s.setWindow_changes p _ _ fun k hk => ?_
    cases k <;> first | exact absurd (by decide) hk | exact WindowField.same_of_refl rfl
  unfold State.recordFault
  dsimp only
  split
  · exact .refl ..
  · split
    · exact hset.trans (State.handOver_changes ..)
    · exact hset

theorem State.setBus_changes (p : Port) (data : Option Word) (reading : Option WordPlace)
    (delayed : Option DelayedAccess) (hold : Option HeldWrite) :
    s.Changes (s.setBus p data reading delayed hold) [.window .hold, .window .reading, .window .delayed] := by
  refine s.setWindow_changes p _ _ fun k hk => ?_
  cases k <;> first | exact absurd (by decide) hk | exact WindowField.same_of_refl rfl

theorem State.takeRead_changes (p : Port) (a : BitVec 15) (rdLow : Bool) :
    s.Changes (s.takeRead p a rdLow) (windowParts ++ [.arbiter]) := by
  unfold State.takeRead
  split
  · exact ((s.setBus_changes ..).trans (State.recordFault_changes ..)).mono (by decide)
  · exact ((s.setBus_changes ..).trans (State.present_changes ..)).mono (by decide)

theorem State.takeWrite_changes (p : Port) (a : BitVec 15) (data : Word) (lo hi : Bool) :
    s.Changes (s.takeWrite p a data lo hi) (windowParts ++ [.arbiter]) := by
  unfold State.takeWrite
  split
  · exact ((s.setBus_changes ..).trans (State.recordFault_changes ..)).mono (by decide)
  · exact ((s.setBus_changes ..).trans (State.present_changes ..)).mono (by decide)

theorem State.readCycle_changes (p : Port) (a : BitVec 15) :
    s.Changes (s.readCycle p a) (windowParts ++ [.arbiter]) := by
  unfold State.readCycle
  split
  · exact (s.setBus_changes ..).mono (by decide)
  · exact s.takeRead_changes ..

theorem State.writeCycle_changes (p : Port) (a : BitVec 15) (data : Word) (lo hi : Bool) :
    s.Changes (s.writeCycle p a data lo hi) (windowParts ++ [.arbiter]) := by
  unfold State.writeCycle
  split
  · exact (s.setBus_changes ..).mono (by decide)
  · exact s.takeWrite_changes ..

theorem State.setDataOut_changes (p : Port) (d : Option Word) :
    s.Changes (s.setWindow p { s.window p with dataOut := d }) [] := by
  refine s.setWindow_changes p _ _ fun k _ => ?_
  cases k <;> exact WindowField.same_of_refl rfl

theorem State.releaseLines_changes (p : Port) : s.Changes (s.releaseLines p) [] := s.setDataOut_changes p none

theorem State.releasedUnless_changes (p : Port) (rdLow : Bool) : s.Changes (s.releasedUnless p rdLow) [] := by
  unfold State.releasedUnless
  split
  · exact .refl ..
  · exact s.releaseLines_changes p

/-- A falling edge changes what its cycle changes. -/
theorem State.busCycle_changes {p : Port} {levels : BusLevels} {window control : State → State} {l : List Part}
    (hw : s.Changes (window s) l) (hc : s.Changes (control s) l) :
    s.Changes (s.busCycle p levels window control) l := by
  unfold State.busCycle
  split
  · split
    · exact hw
    · exact hc
    · exact .refl ..
  · exact .refl ..

theorem State.controlEdge_changes {p : Port} {levels : ControlLevels} {write : State → State} {l : List Part}
    (h : ∀ t : State, t.Changes (write t) l) : s.Changes (s.controlEdge p levels write) l :=
  (s.releasedUnless_changes p levels.rdLow).trans (State.busCycle_changes _ (.refl ..) (h _))

theorem State.writePsel_changes (p : Port) (v : Word) (lo : Bool) :
    s.Changes (s.writePsel p v lo) [.window .registers] := by
  unfold State.writePsel
  split
  · refine s.setWindow_changes p _ _ fun k hk => ?_
    cases k <;> first | exact absurd (by decide) hk | exact WindowField.same_of_refl rfl
  · exact .refl ..

theorem State.writeIe_changes (p : Port) (v : Word) (lo : Bool) : s.Changes (s.writeIe p v lo) [.queues] := by
  unfold State.writeIe
  split
  · exact s.setQueue_changes ..
  · exact .refl ..

theorem State.writeEvpop_changes (p : Port) (lo hi : Bool) : s.Changes (s.writeEvpop p lo hi) [.queues] := by
  unfold State.writeEvpop
  split
  · exact s.setQueue_changes ..
  · exact .refl ..

theorem State.writeCmd_changes (p : Port) (v : Word) (lo : Bool) : s.Changes (s.writeCmd p v lo) [] := by
  unfold State.writeCmd
  dsimp only
  repeat' split
  all_goals first | exact .refl .. | exact s.setCommand_changes ..

theorem State.registerWrite_changes (p : Port) (offset : Nat) (v : Word) (lo hi : Bool) :
    s.Changes (s.registerWrite p offset v lo hi) [.window .registers, .queues] := by
  unfold State.registerWrite
  split
  · exact (s.writeIe_changes ..).mono (by decide)
  · exact (s.writePsel_changes ..).mono (by decide)
  · exact (s.writeCmd_changes ..).mono (by decide)
  · exact (s.writeEvpop_changes ..).mono (by decide)
  · exact (s.setCommand_changes ..).mono (by decide)

theorem State.readEdge_changes (p : Port) (a : BitVec 15) (levels : BusLevels) :
    s.Changes (s.readEdge p a levels) (windowParts ++ [.arbiter]) :=
  (s.releaseLines_changes p).trans (State.busCycle_changes _ (State.readCycle_changes ..)
    ((State.setDataOut_changes ..).mono (by decide)))

theorem State.writeEdge_changes (p : Port) (a : BitVec 15) (v : Word) (lanes : Lanes) (levels : BusLevels) :
    s.Changes (s.writeEdge p a v lanes levels) (windowParts ++ [.arbiter, .queues]) :=
  (s.releasedUnless_changes p levels.otherLow).trans (State.busCycle_changes _
    ((State.writeCycle_changes ..).mono (by decide)) ((State.registerWrite_changes ..).mono (by decide)))

/-! ### The scrub engine, the ticks, a closing and a disposal -/

theorem State.afterPiece_changes : s.Changes s.afterPiece [.scrubPhase, .arbiter] := by
  unfold State.afterPiece
  split
  · exact (s.setScrubPhase_changes s.scrub.phase _).trans (State.present_changes ..)
  · exact (s.setScrubPhase_changes _ _).mono (by decide)

theorem State.reportScrubbed_changes (f : Frame) :
    s.Changes (s.reportScrubbed f) (holdingParts ++ [.frame .reservation]) := by
  unfold State.reportScrubbed
  split
  · refine s.setFrame_changes f _ _ fun k hk => ?_
    cases k <;> first | exact absurd (by decide) hk | exact FrameField.same_of_refl rfl
  · refine ((s.setFrame_changes f _ (holdingParts ++ [.frame .reservation]) fun k hk => ?_).trans
      (State.handOver_changes ..)).mono (by decide)
    cases k <;> first | exact absurd (by decide) hk | exact FrameField.same_of_refl rfl

/-- A fold that collects events changes what each of its steps changes. -/
theorem State.foldl_changes {l : List Part} {step : State × List (Port × EventRecord) → Frame →
    State × List (Port × EventRecord)}
    (h : ∀ (acc : State × List (Port × EventRecord)) (f : Frame), acc.1.Changes (step acc f).1 l) (fs : List Frame) :
    ∀ acc : State × List (Port × EventRecord), acc.1.Changes (fs.foldl step acc).1 l := by
  induction fs with
  | nil => exact fun acc => .refl ..
  | cons f fs ih => exact fun acc => ((h acc f).trans (ih (step acc f))).mono (by simp)

theorem tickFrame_changes (acc : State × List (Port × EventRecord)) (f : Frame) :
    acc.1.Changes (tickFrame acc f).1 [.frame .state, .frame .offer, .inboxes] := by
  unfold tickFrame
  repeat' split
  · exact .refl ..
  · exact .refl ..
  · exact acc.1.endOffer_changes f
  · refine (acc.1.setFrame_changes f _ [.frame .offer] fun k hk => ?_).mono (by decide)
    cases k <;> first | exact absurd (by decide) hk | exact FrameField.same_of_refl rfl

theorem State.takeTick_changes : s.Changes s.takeTick [.frame .state, .frame .offer, .inboxes] :=
  ((State.foldl_changes tickFrame_changes allFrames (s, [])).trans (State.handOver_changes ..)).mono (by decide)

/-- One REFCLK period: nothing, one more period counted, or a tick (R199). -/
theorem State.refclk_cases :
    (s.rstLow = true ∧ s.refclk = s) ∨
      (s.rstLow = false ∧ s.tickCount + 1 < 25000 ∧ s.refclk = s.setTickCount (s.tickCount + 1)) ∨
      (s.rstLow = false ∧ s.refclk = (s.setTickCount 0).takeTick) := by
  unfold State.refclk
  cases hrst : s.rstLow with
  | true => exact .inl ⟨rfl, rfl⟩
  | false =>
    by_cases hlt : s.tickCount + 1 < Config.periodsPerTick
    · exact .inr (.inl ⟨rfl, hlt, by simp [hlt]⟩)
    · exact .inr (.inr ⟨rfl, by simp [hlt]⟩)

theorem State.refclk_changes : s.Changes s.refclk [.tickCount, .frame .state, .frame .offer, .inboxes] := by
  rcases s.refclk_cases with ⟨-, he⟩ | ⟨-, -, he⟩ | ⟨-, he⟩ <;> rw [he]
  · exact .refl ..
  · exact (s.setTickCount_changes _).mono (by decide)
  · exact (s.setTickCount_changes 0).trans (State.takeTick_changes _)

theorem State.awaitTick_refclk (h : s.rstLow = false) : s.awaitTick.refclk = (s.setTickCount 0).takeTick := by
  simp [State.awaitTick, State.refclk, h, State.setTickCount, Config.periodsPerTick]

theorem returnOffer_changes (p : Port) (acc : State × List (Port × EventRecord)) (f : Frame) :
    acc.1.Changes (returnOffer p acc f).1 [.frame .state, .frame .offer, .inboxes] := by
  unfold returnOffer
  split
  · exact .refl ..
  · exact acc.1.endOffer_changes f

theorem cancelOffer_changes (p : Port) (acc : State × List (Port × EventRecord)) (f : Frame) :
    acc.1.Changes (cancelOffer p acc f).1 [.frame .state, .frame .offer, .inboxes] := by
  unfold cancelOffer
  repeat' split
  · exact .refl ..
  · exact acc.1.endOffer_changes f
  · exact .refl ..

/-- The parts that a closing at the directory writes. -/
def closingParts : List Part :=
  [.frame .readers, .frame .fallback, .frame .reservation, .frame .state, .frame .offer, .inboxes, .closingTaken]

theorem State.withoutPort_changes (p : Port) :
    s.Changes (s.setFrames (mapAll (fun r => r.withoutPort p) s.frames))
      [.frame .readers, .frame .fallback, .frame .reservation] := by
  refine s.frames_changes _ _ fun k hk f => ?_
  rw [sel_mapAll]
  cases k <;> first | exact absurd (by decide) hk | rfl

/-- The directory's tables once a closing port's grants, fallbacks and reservations are gone (R26). -/
def State.closeGrants (p : Port) : State :=
  (s.setFrames (mapAll (fun r => r.withoutPort p) s.frames)).setClosingTaken p true

/-- The offers in a closing port's inbox returned, and its own cancelled, with their events (R67, R68). -/
def State.settleOffers (p : Port) : State × List (Port × EventRecord) :=
  allFrames.foldl (cancelOffer p) ((s.inbox p).foldl (returnOffer p) (s, []))

theorem State.closeAtDirectory_eq (p : Port) :
    s.closeAtDirectory p =
      ((s.closeGrants p).settleOffers p).1.handOver .directory ((s.closeGrants p).settleOffers p).2 := rfl

theorem State.settleOffers_changes (p : Port) :
    s.Changes (s.settleOffers p).1 [.frame .state, .frame .offer, .inboxes] :=
  ((State.foldl_changes (returnOffer_changes p) (s.inbox p) (s, [])).trans
    (State.foldl_changes (cancelOffer_changes p) allFrames _)).mono (by decide)

theorem State.closeAtDirectory_changes (p : Port) : s.Changes (s.closeAtDirectory p) closingParts := by
  rw [State.closeAtDirectory_eq]
  exact ((((s.withoutPort_changes p).trans (State.setClosingTaken_changes _ p true)).trans
    (State.settleOffers_changes _ p)).trans (State.handOver_changes ..)).mono (by decide)

theorem disposeFrame_changes (p : Port) (acc : State × List (Port × EventRecord)) (f : Frame) :
    acc.1.Changes (disposeFrame p acc f).1 (holdingParts ++ [.scrubQueue]) := by
  unfold disposeFrame
  dsimp only
  split
  · exact .refl ..
  · split
    · refine (acc.1.setFrame_changes f _ holdingParts fun k hk => ?_).mono (by decide)
      cases k <;> first | exact absurd (by decide) hk | exact FrameField.same_of_refl rfl
    · exact acc.1.sendToScrub_changes f

theorem State.setDisposalDone_changes (p : Port) (b : Bool) :
    s.Changes (s.setSession p { s.session p with disposalDone := b }) [.session .disposalDone] := by
  refine s.setSession_changes p _ _ fun k hk => ?_
  cases k <;> first | exact absurd (by decide) hk | exact SessionField.same_of_refl rfl

theorem State.disposeAll_changes (p : Port) :
    s.Changes (s.disposeAll p) (holdingParts ++ [.scrubQueue, .session .disposalDone]) :=
  (((State.foldl_changes (disposeFrame_changes p) allFrames (s, [])).trans (State.handOver_changes ..)).trans
    (State.setDisposalDone_changes _ p true)).mono (by decide)

end

end Sys2Proof.Machine
end

section
/-! SUPPORT. The parts that each command writes: every other part of the state is as it was. -/

namespace Sys2Proof.Machine

/-! ## The commands -/

/-- The parts that a command may write. -/
def Instr.parts : Instr → List Part
  | .claim _ => [.frame .state, .frame .owner, .frame .reservation]
  | .claimAny _ => [.frame .state, .frame .owner]
  | .release _ => holdingParts ++ [.scrubQueue]
  | .fallback _ => [.frame .fallback]
  | .lend _ | .revoke _ | .drop _ => [.frame .readers]
  | .offer _ | .withdraw _ | .decline _ | .expiry _ => [.frame .state, .frame .offer, .inboxes]
  | .accept _ => holdingParts ++ [.inboxes]
  | .label _ | .frameInfo _ | .peek _ | .mapRead _ | .ringStatus _ | .unknown _ => []
  | .mapSet _ | .mapClear _ | .faultClear _ | .pselWrite _ _ _ _ => [.window .registers]
  | .ringSetup _ | .ringKick _ | .ringStop _ | .ringRestart _ | .ringTeardown _ => [.rings]
  | .post _ | .ieWrite _ _ _ _ | .evpop _ _ _ _ | .eventArrival _ | .peerUp _ => [.queues]
  | .detach _ => [.session .state, .session .annEvent, .session .annWindow, .session .annCopy, .dirMail]
  | .overrun _ _ _ _ | .closingRefusal _ _ _ _ | .commandWrite _ _ _ _ | .commandUnitClosing _ => []
  | .registerWrite _ _ _ _ _ | .windowWrite _ _ _ _ _ => windowParts ++ [.arbiter, .queues]
  | .windowRead _ _ | .delayedWindowAccess _ _ => windowParts ++ [.arbiter]
  | .readCarriedOut _ _ => [.window .reading, .arbiter]
  | .writeCarriedOut _ => [.mem, .window .hold, .arbiter]
  | .arbiterGrant _ => jobEndParts ++ [.rings, .arbiter]
  | .scrubStart => [.scrubPhase, .arbiter]
  | .pieceEnd => [.mem, .scrubPhase, .arbiter]
  | .scrubDone => holdingParts ++ [.frame .reservation, .scrubQueue, .scrubPhase, .arbiter]
  | .tick => [.tickCount, .frame .state, .frame .offer, .inboxes]
  | .selection => [.engine, .arbiter]
  | .fetchEnd => jobEndParts ++ [.rings, .arbiter]
  | .segmentBegin => jobEndParts ++ [.frame .mark, .arbiter]
  | .segmentEnd => jobEndParts ++ [.mem, .frame .mark, .scrubPhase, .arbiter]
  | .writeBackEnd => jobEndParts ++ [.mem, .rings, .arbiter]
  | .prstAsserted _ =>
    [.session .state, .session .prstLow, .session .annEvent, .session .annWindow, .session .annCopy, .dirMail,
      .window .delayed]
  | .prstReleased _ => [.session .state, .session .prstLow, .closingTaken]
  | .eventUnitClosing _ => [.queues, .session .annEvent]
  | .windowUnitClosing _ => [.window .registers, .session .annWindow]
  | .directoryClosing _ => .dirMail :: closingParts
  | .copyEngineClosing _ => jobEndParts ++ [.session .annCopy, .rings, .arbiter]
  | .jobGone _ => [.session .state, .session .jobGone, .dirMail]
  | .disposal _ => holdingParts ++ [.dirMail, .scrubQueue, .session .disposalDone]
  | .disposalDone _ => [.session .state, .session .disposalDone, .closingTaken]
  | .rstAsserted =>
    jobEndParts ++ [.rstLow, .mem, .frame .mark, .dirMail, .window .hold, .window .reading, .window .delayed, .rings,
      .arbiter, .session .annEvent, .session .annWindow, .session .annCopy, .session .disposalDone]
  | .rstRisingEdge _ _ =>
    holdingParts ++ jobEndParts ++ windowParts ++ [.rstLow, .splitQuota, .frame .reservation, .frame .mark, .inboxes,
      .closingTaken, .dirMail, .scrubQueue, .scrubPhase, .tickCount, .rings, .queues, .arbiter, .session .state,
      .session .prstLow, .session .annEvent, .session .annWindow, .session .annCopy, .session .disposalDone]

/-- What holds of a state and is kept by a command's meaning holds after the command. -/
theorem whileRunning_keeps {s t : State} {act : State → State} {P : State → Prop} (h : whileRunning s act = .next t)
    (hs : P s) (hact : s.rstLow = false → P (act s)) : P t := by
  cases hrst : s.rstLow with
  | true =>
    rw [whileRunning_low hrst] at h
    cases h
    exact hs
  | false =>
    rw [whileRunning_high hrst] at h
    cases h
    exact hact hrst

theorem whileRunning_changes {s t : State} {act : State → State} {l : List Part} (h : whileRunning s act = .next t)
    (hact : s.Changes (act s) l) : s.Changes t l :=
  whileRunning_keeps (P := fun u => s.Changes u l) h (.refl s l) fun _ => hact

section

variable (s : State) (p : Port) (a : Args)

/-! ### The bodies of the commands -/

theorem claimBody_changes :
    s.Changes (claimBody s p a).1 [.frame .state, .frame .owner, .frame .reservation] := by
  unfold claimBody claimFrame
  dsimp only
  repeat' split
  all_goals first
    | exact .refl ..
    | refine s.setFrame_changes _ _ _ fun k hk => ?_
      cases k <;> first | exact absurd (by decide) hk | exact FrameField.same_of_refl rfl

theorem claimAnyBody_changes : s.Changes (claimAnyBody s p a).1 [.frame .state, .frame .owner] := by
  unfold claimAnyBody
  repeat' split
  · exact .refl ..
  · exact .refl ..
  · refine s.setFrame_changes _ _ _ fun k hk => ?_
    cases k <;> first | exact absurd (by decide) hk | exact FrameField.same_of_refl rfl

theorem releaseBody_changes : s.Changes (releaseBody s p a).1 (holdingParts ++ [.scrubQueue]) := by
  unfold releaseBody
  dsimp only
  repeat' split
  all_goals first
    | exact .refl ..
    | exact ((s.sendToScrub_changes _).trans (State.handOver_changes ..)).mono (by decide)

theorem labelBody_changes : s.Changes (labelBody s p a).1 [] := by
  unfold labelBody
  dsimp only
  repeat' split
  all_goals first
    | exact .refl ..
    | refine s.setFrame_changes _ _ _ fun k hk => ?_
      cases k <;> exact FrameField.same_of_refl rfl

theorem fallbackBody_changes : s.Changes (fallbackBody s p a).1 [.frame .fallback] := by
  unfold fallbackBody
  dsimp only
  repeat' split
  all_goals first
    | exact .refl ..
    | refine s.setFrame_changes _ _ _ fun k hk => ?_
      cases k <;> first | exact absurd (by decide) hk | exact FrameField.same_of_refl rfl

theorem State.setReaders_changes (f : Frame) (v : Vector Bool 4) :
    s.Changes (s.setFrame f { s.frame f with readers := v }) [.frame .readers] := by
  refine s.setFrame_changes _ _ _ fun k hk => ?_
  cases k <;> first | exact absurd (by decide) hk | exact FrameField.same_of_refl rfl

theorem lendBody_changes : s.Changes (lendBody s p a).1 [.frame .readers] := by
  unfold lendBody
  dsimp only
  repeat' split
  all_goals first
    | exact .refl ..
    | dsimp only; exact (s.setReaders_changes _ _).trans (State.handOver_changes ..)

theorem revokeBody_changes : s.Changes (revokeBody s p a).1 [.frame .readers] := by
  unfold revokeBody
  dsimp only
  repeat' split
  all_goals first
    | exact .refl ..
    | dsimp only; exact (s.setReaders_changes _ _).trans (State.handOver_changes ..)

theorem dropBody_changes : s.Changes (dropBody s p a).1 [.frame .readers] := by
  unfold dropBody
  dsimp only
  repeat' split
  all_goals first
    | exact .refl ..
    | exact s.setReaders_changes _ _

theorem State.makeOffer_changes (o : Offer) :
    s.Changes (s.makeOffer o) [.frame .state, .frame .offer, .inboxes] := by
  refine (s.setFrame_changes o.frame _ [.frame .state, .frame .offer] fun k hk => ?_).trans (State.setInbox_changes ..)
  cases k <;> first | exact absurd (by decide) hk | exact FrameField.same_of_refl rfl

theorem offerBody_changes : s.Changes (offerBody s p a).1 [.frame .state, .frame .offer, .inboxes] := by
  unfold offerBody
  dsimp only
  repeat' split
  all_goals first
    | exact .refl ..
    | dsimp only; exact (s.makeOffer_changes _).trans (State.handOver_changes ..)

theorem State.endOffer_handOver_changes (f : Frame) (source : Producer) (l : List (Port × EventRecord)) :
    s.Changes ((s.endOffer f).handOver source l) [.frame .state, .frame .offer, .inboxes] :=
  ((s.endOffer_changes f).trans (State.handOver_changes ..)).mono (by decide)

theorem withdrawBody_changes : s.Changes (withdrawBody s p a).1 [.frame .state, .frame .offer, .inboxes] := by
  unfold withdrawBody
  repeat' split
  all_goals first
    | exact .refl ..
    | dsimp only; exact s.endOffer_handOver_changes _ _ _

theorem declineBody_changes : s.Changes (declineBody s p a).1 [.frame .state, .frame .offer, .inboxes] := by
  unfold declineBody
  repeat' split
  all_goals first
    | exact .refl ..
    | dsimp only; exact s.endOffer_handOver_changes _ _ _

theorem acceptBody_changes : s.Changes (acceptBody s p a).1 (holdingParts ++ [.inboxes]) := by
  unfold acceptBody
  dsimp only
  repeat' split
  all_goals first
    | exact .refl ..
    | refine (((s.setFrame_changes _ _ holdingParts fun k hk => ?_).trans (State.setInbox_changes ..)).trans
        (State.handOver_changes ..)).mono (by decide)
      cases k <;> first | exact absurd (by decide) hk | exact FrameField.same_of_refl rfl

theorem State.setRegisters_changes (v : Vector (Vector (Option SlotEntry) 16) 4) (n : Fin 4)
    (r : Option FaultRecord) :
    s.Changes (s.setWindow p { s.window p with profiles := v, active := n, fault := r }) [.window .registers] := by
  refine s.setWindow_changes _ _ _ fun k hk => ?_
  cases k <;> first | exact absurd (by decide) hk | exact WindowField.same_of_refl rfl

theorem mapSetBody_changes : s.Changes (mapSetBody s p a).1 [.window .registers] := by
  unfold mapSetBody
  split
  · exact s.setRegisters_changes p ..
  · exact .refl ..

theorem mapClearBody_changes : s.Changes (mapClearBody s p a).1 [.window .registers] := by
  unfold mapClearBody
  split
  · exact s.setRegisters_changes p ..
  · exact .refl ..

theorem ringSetupBody_changes : s.Changes (ringSetupBody s p a).1 [.rings] := by
  unfold ringSetupBody
  repeat' split
  all_goals first | exact .refl .. | exact s.setRing_changes ..

theorem ringKickBody_changes : s.Changes (ringKickBody s p a).1 [.rings] := by
  unfold ringKickBody
  dsimp only
  repeat' split
  all_goals first | exact .refl .. | exact s.setRing_changes ..

theorem ringStopBody_changes : s.Changes (ringStopBody s p a).1 [.rings] := by
  unfold ringStopBody
  dsimp only
  repeat' split
  all_goals first | exact .refl .. | exact s.setRing_changes ..

theorem ringRestartBody_changes : s.Changes (ringRestartBody s p a).1 [.rings] := by
  unfold ringRestartBody
  split
  all_goals first | exact .refl .. | exact s.setRing_changes ..

theorem ringTeardownBody_changes : s.Changes (ringTeardownBody s p a).1 [.rings] := by
  unfold ringTeardownBody
  split
  all_goals first | exact .refl .. | exact s.setRing_changes ..

theorem postBody_changes : s.Changes (postBody s p a).1 [.queues] := by
  unfold postBody
  repeat' split
  all_goals first | exact .refl .. | exact s.setQueue_changes ..

/-! ### PRST# -/

theorem State.setPrst_changes (low : Bool) : s.Changes (s.setPrst p low) [.session .prstLow] := by
  refine s.setSession_changes p _ _ fun k hk => ?_
  cases k <;> first | exact absurd (by decide) hk | exact SessionField.same_of_refl rfl

theorem State.setSessionState_changes (st : SessionState) :
    s.Changes (s.setSession p { s.session p with state := st }) [.session .state] := by
  refine s.setSession_changes p _ _ fun k hk => ?_
  cases k <;> first | exact absurd (by decide) hk | exact SessionField.same_of_refl rfl

theorem State.assertPrst_changes : s.Changes (s.assertPrst p)
    [.session .state, .session .annEvent, .session .annWindow, .session .annCopy, .dirMail] := by
  unfold State.assertPrst
  split
  · exact s.enterClosing_changes p false
  · exact (s.setSessionState_changes p _).mono (by decide)
  · exact .refl ..

theorem State.releasePrst_changes : s.Changes (s.releasePrst p) [.session .state, .closingTaken] := by
  unfold State.releasePrst
  split
  · exact s.enterUp_changes p
  · exact (s.setSessionState_changes p _).mono (by decide)
  · exact .refl ..

theorem State.assertPrst_window (q : Port) : (s.assertPrst p).window q = s.window q := by
  unfold State.assertPrst
  split <;> rfl

theorem State.discard_session (q : Port) : (s.discard p).session q = s.session q := by
  obtain ⟨v, hv⟩ := s.discard_rest p
  rw [hv]
  rfl

end

/-! ### Every command -/

theorem execRstAsserted_changes {s t : State} (h : execRstAsserted s = .next t) :
    s.Changes t (Instr.parts .rstAsserted) := by
  cases h
  split
  · exact .refl ..
  · refine ⟨fun x hx => ?_⟩
    cases x
    case frame k =>
      intro f
      simp only [State.frame, sel_mapAll]
      cases k <;> first | exact absurd (by decide) hx | rfl
    case window k =>
      intro p
      simp only [State.window, sel_mapAll]
      cases k <;> first | exact absurd (by decide) hx | exact WindowField.same_of_refl rfl
    case session k =>
      intro p
      simp only [State.session, sel_mapAll]
      cases k <;> first | exact absurd (by decide) hx | rfl
    all_goals first | exact absurd (by decide) hx | exact Part.same_of_refl rfl

theorem execRstRisingEdge_changes {s t : State} {qmode : Bool} {prst : Vector Bool 4}
    (h : execRstRisingEdge qmode prst s = .next t) : s.Changes t (Instr.parts (.rstRisingEdge qmode prst)) := by
  cases h
  split
  · refine ⟨fun x hx => ?_⟩
    cases x
    case frame k => cases k <;> simp [Instr.parts, holdingParts] at hx
    case window k => cases k <;> simp [Instr.parts, windowParts] at hx
    case session k => cases k <;> simp [Instr.parts, jobEndParts] at hx
    case pending => rfl
    case mem => rfl
    all_goals simp [Instr.parts, jobEndParts] at hx
  · exact .refl ..

/-- A command changes at most its own parts. -/
theorem exec_changes {c : Instr} {s t : State} (h : exec c s = .next t) : s.Changes t (Instr.parts c) := by
  cases c <;> unfold exec at h
  case claim p => exact whileRunning_changes h (s.takeCommand_changes fun a => claimBody_changes s p a)
  case claimAny p => exact whileRunning_changes h (s.takeCommand_changes fun a => claimAnyBody_changes s p a)
  case release p => exact whileRunning_changes h (s.takeCommand_changes fun a => releaseBody_changes s p a)
  case label p => exact whileRunning_changes h (s.takeCommand_changes fun a => labelBody_changes s p a)
  case fallback p => exact whileRunning_changes h (s.takeCommand_changes fun a => fallbackBody_changes s p a)
  case frameInfo p =>
    refine whileRunning_changes h (s.takeCommand_changes fun a => ?_)
    unfold frameInfoBody
    split <;> exact .refl ..
  case lend p => exact whileRunning_changes h (s.takeCommand_changes fun a => lendBody_changes s p a)
  case revoke p => exact whileRunning_changes h (s.takeCommand_changes fun a => revokeBody_changes s p a)
  case drop p => exact whileRunning_changes h (s.takeCommand_changes fun a => dropBody_changes s p a)
  case offer p => exact whileRunning_changes h (s.takeCommand_changes fun a => offerBody_changes s p a)
  case withdraw p => exact whileRunning_changes h (s.takeCommand_changes fun a => withdrawBody_changes s p a)
  case accept p => exact whileRunning_changes h (s.takeCommand_changes fun a => acceptBody_changes s p a)
  case decline p => exact whileRunning_changes h (s.takeCommand_changes fun a => declineBody_changes s p a)
  case peek p =>
    refine whileRunning_changes h (s.takeCommand_changes fun a => ?_)
    unfold peekBody
    repeat' split
    all_goals exact .refl ..
  case mapSet p => exact whileRunning_changes h (s.takeCommand_changes fun a => mapSetBody_changes s p a)
  case mapClear p => exact whileRunning_changes h (s.takeCommand_changes fun a => mapClearBody_changes s p a)
  case mapRead p =>
    refine whileRunning_changes h (s.takeCommand_changes fun a => ?_)
    unfold mapReadBody
    split <;> exact .refl ..
  case faultClear p =>
    exact whileRunning_changes h (s.takeCommand_changes fun a => s.setRegisters_changes p _ _ none)
  case ringSetup p => exact whileRunning_changes h (s.takeCommand_changes fun a => ringSetupBody_changes s p a)
  case ringKick p => exact whileRunning_changes h (s.takeCommand_changes fun a => ringKickBody_changes s p a)
  case ringStop p => exact whileRunning_changes h (s.takeCommand_changes fun a => ringStopBody_changes s p a)
  case ringRestart p => exact whileRunning_changes h (s.takeCommand_changes fun a => ringRestartBody_changes s p a)
  case ringTeardown p => exact whileRunning_changes h (s.takeCommand_changes fun a => ringTeardownBody_changes s p a)
  case ringStatus p => exact whileRunning_changes h (s.takeCommand_changes (body := ringStatusBody) fun a => .refl ..)
  case post p => exact whileRunning_changes h (s.takeCommand_changes fun a => postBody_changes s p a)
  case detach p =>
    exact whileRunning_changes h (s.takeCommand_changes (body := detachBody) fun a => s.enterClosing_changes p true)
  case unknown p => exact whileRunning_changes h (s.takeCommand_changes (body := unknownBody) fun a => .refl ..)
  case overrun p v l b => exact whileRunning_changes h (s.controlEdge_changes fun t => t.writeCmd_changes p v l.lo)
  case closingRefusal p v l b =>
    exact whileRunning_changes h (s.controlEdge_changes fun t => t.writeCmd_changes p v l.lo)
  case pselWrite p v l b => exact whileRunning_changes h (s.controlEdge_changes fun t => t.writePsel_changes p v l.lo)
  case ieWrite p v l b => exact whileRunning_changes h (s.controlEdge_changes fun t => t.writeIe_changes p v l.lo)
  case evpop p v l b =>
    exact whileRunning_changes h (s.controlEdge_changes fun t => t.writeEvpop_changes p l.lo l.hi)
  case registerWrite p a v l b => exact whileRunning_changes h (s.writeEdge_changes p a v l b)
  case windowRead p e =>
    refine whileRunning_changes h ?_
    cases e with
    | falls a b => exact s.readEdge_changes p a b
    | rises => exact (s.releaseLines_changes p).mono (List.nil_subset _)
  case windowWrite p a v l b => exact whileRunning_changes h (s.writeEdge_changes p a v l b)
  case delayedWindowAccess p rdLow =>
    refine whileRunning_changes h ?_
    split
    · split
      · exact s.takeRead_changes ..
      · exact s.takeWrite_changes ..
    · exact .refl ..
  case readCarriedOut p rdLow =>
    refine whileRunning_changes h ?_
    split
    · exact .refl ..
    · split
      · refine (s.setWindow_changes p _ [.window .reading] fun k hk => ?_).trans (State.endGrant_changes _)
        cases k <;> first | exact absurd (by decide) hk | exact WindowField.same_of_refl rfl
      · exact .refl ..
  case writeCarriedOut p =>
    refine whileRunning_changes h ?_
    split
    · exact .refl ..
    · split
      · refine ((s.setMem_changes _).trans (State.setWindow_changes _ p _ [.window .hold] fun k hk => ?_)).trans
          (State.endGrant_changes _)
        cases k <;> first | exact absurd (by decide) hk | exact WindowField.same_of_refl rfl
      · exact .refl ..
  case arbiterGrant happening =>
    refine whileRunning_changes h ?_
    cases happening with
    | arrival c =>
      dsimp only
      repeat' split
      · exact ((s.setArbiter_changes _).trans (State.grantClaim_changes _ c)).mono (by simp [Instr.parts])
      · exact ((s.setArbiter_changes _).trans (State.setArbiter_changes _ _)).mono (by simp [Instr.parts])
      · exact .refl ..
    | endOfGrant =>
      dsimp only
      repeat' split
      · exact s.grantClaim_changes _
      · exact (s.setArbiter_changes _).mono (by decide)
      · exact .refl ..
  case scrubStart =>
    refine whileRunning_changes h ?_
    split
    · exact s.takeHead_changes
    · exact .refl ..
  case pieceEnd =>
    refine whileRunning_changes h ?_
    repeat' split
    · exact .refl ..
    · exact (((s.setMem_changes _).trans (State.endGrant_changes _)).trans (State.afterPiece_changes _)).mono (by decide)
    · exact .refl ..
  case scrubDone =>
    refine whileRunning_changes h ?_
    repeat' split
    · exact .refl ..
    · exact (((s.reportScrubbed_changes _).trans (State.setScrub_changes _ _)).trans
        (State.takeHead_changes _)).mono (by decide)
    · exact .refl ..
  case tick =>
    exact whileRunning_changes h
      (((s.setTickCount_changes _).trans (State.refclk_changes _)).mono (by decide))
  case expiry f =>
    refine whileRunning_changes h ?_
    repeat' split
    · exact .refl ..
    · exact s.endOffer_handOver_changes _ _ _
    · exact .refl ..
  case selection =>
    refine whileRunning_changes h ?_
    repeat' split
    · exact .refl ..
    · exact .refl ..
    · exact (s.setPointer_changes _).trans (State.request_changes _ _)
    · exact .refl ..
  case fetchEnd =>
    refine whileRunning_changes h ?_
    split
    · split
      · dsimp only
        repeat' split
        · exact ((s.finishJob_changes _).trans (State.endGrant_changes _)).mono (by decide)
        · exact (((s.setRing_changes ..).trans (State.endGrant_changes _)).trans
            (State.validate_changes ..)).mono (by decide)
        · exact (((s.setRing_changes ..).trans (State.endGrant_changes _)).trans
            (State.finishJob_changes ..)).mono (by decide)
      · exact .refl ..
    · exact .refl ..
  case segmentBegin =>
    refine whileRunning_changes h ?_
    repeat' split
    · exact ((s.finishJob_changes _).trans (State.endGrant_changes _)).mono (by decide)
    · exact ((s.setMarks_changes _ true).trans (State.setEngine_changes ..)).mono (by decide)
    · exact (s.endGrant_changes.trans (State.request_changes ..)).mono (by decide)
    · exact .refl ..
    · exact .refl ..
  case segmentEnd =>
    refine whileRunning_changes h ?_
    repeat' split
    · exact (((((s.setMem_changes _).trans (State.setMarks_changes _ _ false)).trans (State.endGrant_changes _)).trans
        (State.afterSegment_changes ..)).trans (State.wakeHeld_changes _)).mono (by decide)
    · exact .refl ..
    · exact .refl ..
  case writeBackEnd =>
    refine whileRunning_changes h ?_
    split
    · dsimp only
      split
      · exact (((((s.setMem_changes _).trans (State.setRing_changes ..)).trans (State.handOver_changes ..)).trans
          (State.finishJob_changes ..)).trans (State.endGrant_changes _)).mono (by decide)
      · exact .refl ..
    · exact .refl ..
  case eventArrival source =>
    refine whileRunning_changes h ?_
    split
    · exact .refl ..
    · exact (s.setHandovers_changes _).trans (State.arriveAll_changes ..)
  case prstAsserted p =>
    refine whileRunning_changes h ?_
    split
    · exact .refl ..
    · refine (((s.setPrst_changes p true).trans (State.assertPrst_changes _ p)).trans
        (State.setWindow_changes _ p _ [.window .delayed] fun k hk => ?_)).mono (by simp [Instr.parts])
      rw [State.assertPrst_window]
      cases k <;> first | exact absurd (by decide) hk | exact WindowField.same_of_refl rfl
  case prstReleased p =>
    refine whileRunning_changes h ?_
    split
    · exact ((s.setPrst_changes p false).trans (State.releasePrst_changes _ p)).mono (by simp [Instr.parts])
    · exact .refl ..
  case eventUnitClosing p =>
    refine whileRunning_changes h ?_
    split
    · refine (((s.setQueue_changes ..).trans (State.setSession_changes _ p _ [.session .annEvent] fun k hk => ?_)).trans
        (State.arriveAll_changes ..)).mono (by simp [Instr.parts])
      cases k <;> first | exact absurd (by decide) hk | exact SessionField.same_of_refl rfl
    · exact .refl ..
  case commandUnitClosing p =>
    refine whileRunning_changes h ?_
    split
    · refine (s.discard_changes p).trans (State.setSession_changes _ p _ [] fun k hk => ?_)
      rw [State.discard_session]
      cases k <;> exact SessionField.same_of_refl rfl
    · exact .refl ..
  case windowUnitClosing p =>
    refine whileRunning_changes h ?_
    split
    · refine (s.setRegisters_changes p _ _ _).trans (State.setSession_changes _ p _ [.session .annWindow] fun k hk => ?_)
      cases k <;> first | exact absurd (by decide) hk | exact SessionField.same_of_refl rfl
    · exact .refl ..
  case directoryClosing p =>
    refine whileRunning_changes h ?_
    repeat' split
    · exact (s.setDirMail_changes _).trans (State.closeAtDirectory_changes ..)
    · exact .refl ..
    · exact .refl ..
  case copyEngineClosing p =>
    refine whileRunning_changes h ?_
    split
    · refine (((s.setSession_changes p _ [.session .annCopy] fun k hk => ?_).trans (State.setRing_changes ..)).trans
        (State.closeJob_changes ..)).mono (by simp [Instr.parts])
      cases k <;> first | exact absurd (by decide) hk | exact SessionField.same_of_refl rfl
    · exact .refl ..
  case jobGone p =>
    refine whileRunning_changes h ?_
    repeat' split
    · refine (s.setSession_changes p _ [.session .state, .session .jobGone] fun k hk => ?_).trans
        (State.setDirMail_changes ..)
      cases k <;> first | exact absurd (by decide) hk | exact SessionField.same_of_refl rfl
    · exact .refl ..
    · exact .refl ..
  case disposal p =>
    refine whileRunning_changes h ?_
    repeat' split
    · exact ((s.setDirMail_changes _).trans (State.disposeAll_changes ..)).mono (by simp [Instr.parts])
    · exact .refl ..
    · exact .refl ..
  case disposalDone p =>
    refine whileRunning_changes h ?_
    have hdown : s.Changes (s.setSession p { s.session p with state := .down, disposalDone := false })
        [.session .state, .session .disposalDone] := by
      refine s.setSession_changes p _ _ fun k hk => ?_
      cases k <;> first | exact absurd (by decide) hk | exact SessionField.same_of_refl rfl
    repeat' split
    · exact (hdown.trans (State.enterUp_changes _ p)).mono (by simp [Instr.parts])
    · exact hdown.mono (by simp [Instr.parts])
    · exact .refl ..
    · exact .refl ..
  case peerUp p =>
    refine whileRunning_changes h ?_
    split
    · exact .refl ..
    · refine (s.setSession_changes p _ [] fun k hk => ?_).trans (State.arriveAll_changes ..)
      cases k <;> exact SessionField.same_of_refl rfl
  case rstAsserted => exact execRstAsserted_changes h
  case rstRisingEdge qmode prst => exact execRstRisingEdge_changes h
  case commandWrite p v l b => exact whileRunning_changes h (s.controlEdge_changes fun t => t.writeCmd_changes p v l.lo)

end Sys2Proof.Machine
end

section
/-! SUPPORT. One step as the command at the front of the queue or a REFCLK period, and what every step keeps whatever the
command: the queue behind it, and the canonical form of the array's list. -/

namespace Sys2Proof.Machine

/-- A step is one REFCLK period or one command. -/
theorem step_cases {s t : State} (h : step s = .next t) :
    (s.pending = [] ∧ t = s.refclk) ∨ ∃ c rest, exec c (s.setPending rest) = .next t := by
  unfold step at h
  split at h
  · cases h
    exact .inl ⟨‹_›, rfl⟩
  · exact .inr ⟨_, _, h⟩

/-- A condition that a REFCLK period and each command keep is kept by every step. -/
theorem step_keeps {P : State → Prop} {l : List Part} (hP : ReadsOnly P l) (hl : partsApart l [.pending] = true)
    (hrefclk : ∀ s, P s → P s.refclk) (hexec : ∀ c s t, exec c s = .next t → P s → P t) {s t : State}
    (h : step s = .next t) (hs : P s) : P t := by
  rcases step_cases h with ⟨-, rfl⟩ | ⟨c, rest, he⟩
  · exact hrefclk s hs
  · exact hexec c _ t he (hP.keep (s.setPending_changes rest) hl hs)

/-! ## The queue and RST# -/

/-- Settles O3: the queue is among no command's parts. -/
theorem execKeepsQueue : Obligations.ExecKeepsQueue := by
  intro c s t h
  refine (exec_changes h).same .pending ?_
  cases c <;> rfl

/-- Settles O1: the equation of `step` for a queue with a front. -/
theorem stepRunsFrontCommand : Obligations.StepRunsFrontCommand := by
  intro c rest s h
  unfold step
  rw [h]
  rfl

/-- Settles O4: every meaning but those of the two edges of RST# runs under `whileRunning`, and the assertion finds RST#
low already. -/
theorem nothingTakenWhileRstLow : Obligations.NothingTakenWhileRstLow := by
  intro c s hrst hne
  cases c <;> unfold exec
  case rstRisingEdge qmode prst => exact absurd rfl (hne qmode prst)
  case rstAsserted => exact congrArg Host.Outcome.next (if_pos hrst)
  all_goals exact whileRunning_low hrst _

/-- Settles O2: the three outcomes of a period by `State.refclk_cases`. -/
theorem idleStepCountsOnePeriod : Obligations.IdleStepCountsOnePeriod := by
  intro s hpending
  have hstep : step s = .next s.refclk := by unfold step; rw [hpending]
  rw [hstep]
  refine ⟨fun hrst => ?_, fun hrst hlt => ?_, fun hrst hle => ?_⟩
  · simp [State.refclk, hrst]
  · simp [State.refclk, hrst, Config.periodsPerTick, hlt, State.setTickCount]
  · have hnot : ¬s.tickCount + 1 < Config.periodsPerTick := by
      simp only [Config.periodsPerTick]
      omega
    have htick : exec .tick s = .next s.awaitTick.refclk := by
      unfold exec execTick
      rw [whileRunning_high hrst]
    rw [htick, State.awaitTick_refclk s hrst]
    simp [State.refclk, hrst, hnot]

/-! ## The array -/

/-- The array's list is canonical. -/
def State.MemCanonical (s : State) : Prop := s.mem.wf = true

theorem memCanonical_reads : ReadsOnly State.MemCanonical [.mem] := fun s t h hs => by
  have hm : t.mem = s.mem := h .mem (by decide)
  rw [State.MemCanonical, hm]
  exact hs

/-- Whichever bytes of the cut-short grant were written, the list stays canonical (R43, R100, R197). -/
theorem State.cutShortMem_wf {s : State} (h : s.mem.wf = true) : s.cutShortMem.wf = true := by
  unfold State.cutShortMem
  dsimp only
  split
  · split
    · exact h
    · exact Memory.writeLanes_wf h
  · split
    · exact Memory.writeSome_wf h
    · exact h
  · split
    · exact Memory.writeSome_wf h
    · exact Memory.writeSome_wf (Memory.writeSome_wf h)
    · exact h
  · exact h

theorem exec_keeps_memCanonical (c : Instr) (s t : State) (h : exec c s = .next t) (hs : s.MemCanonical) :
    t.MemCanonical := by
  have hc := exec_changes h
  cases c <;> unfold exec at h
  case writeCarriedOut p =>
    refine whileRunning_keeps (P := State.MemCanonical) h hs fun _ => ?_
    repeat' split
    · exact hs
    · exact Memory.writeLanes_wf hs
    · exact hs
  case pieceEnd =>
    refine whileRunning_keeps (P := State.MemCanonical) h hs fun _ => ?_
    repeat' split
    · exact hs
    · exact memCanonical_reads.keep ((State.endGrant_changes _).trans (State.afterPiece_changes _)) rfl
        (Memory.writeBytes_wf hs : (s.setMem _).MemCanonical)
    · exact hs
  case segmentEnd =>
    refine whileRunning_keeps (P := State.MemCanonical) h hs fun _ => ?_
    repeat' split
    · exact memCanonical_reads.keep ((((State.setMarks_changes _ _ false).trans (State.endGrant_changes _)).trans
        (State.afterSegment_changes ..)).trans (State.wakeHeld_changes _)) rfl
        (Memory.copyBytes_wf hs : (s.setMem _).MemCanonical)
    · exact hs
    · exact hs
  case writeBackEnd =>
    refine whileRunning_keeps (P := State.MemCanonical) h hs fun _ => ?_
    repeat' split
    · exact memCanonical_reads.keep ((((State.setRing_changes ..).trans (State.handOver_changes ..)).trans
        (State.finishJob_changes ..)).trans (State.endGrant_changes _)) rfl
        (Memory.writeBytes_wf (Memory.writeBytes_wf hs) : (s.setMem _).MemCanonical)
    · exact hs
    · exact hs
  case rstAsserted =>
    cases h
    split
    · exact hs
    · exact State.cutShortMem_wf hs
  all_goals exact memCanonical_reads.keep hc rfl hs

/-- Settles O54: five commands write the array, each byte by byte, and a period writes none. -/
theorem stepKeepsMemoryCanonical : Obligations.StepKeepsMemoryCanonical := fun s _ hs h =>
  step_keeps memCanonical_reads rfl (fun s hs => memCanonical_reads.keep s.refclk_changes rfl hs)
    exec_keeps_memCanonical h (show s.MemCanonical from hs)

end Sys2Proof.Machine
end

section
/-! SUPPORT. How a condition passes through the taking of a command and through a bus cycle, and the independent conditions
that every step keeps: pins, marks, queue bounds, the units of a closed port and the tick count. -/

namespace Sys2Proof.Machine

/-! ## Conditions through the shared forms of a command -/

/-- A falling edge keeps what its window access and its control access keep where a cycle is taken. -/
theorem busCycle_keeps {P : State → Prop} {s : State} {p : Port} {levels : BusLevels} {window control : State → State} (hs : P s)
    (hw : s.Taken p → P (window s)) (hc : s.Taken p → P (control s)) : P (s.busCycle p levels window control) := by
  unfold State.busCycle
  split
  · have ht := State.cycleTaken_iff.mp ‹_›
    split
    · exact hw ht
    · exact hc ht
    · exact hs
  · exact hs

section

variable {P : State → Prop} {l : List Part} (hP : ReadsOnly P l) {s : State} {p : Port}
include hP

/-- A change of no part keeps every condition. -/
theorem ReadsOnly.keep_nil {t : State} (h : s.Changes t []) (hs : P s) : P t :=
  hP s t (fun x _ => h.same_of_notMem x (by simp)) hs

theorem ReadsOnly.answer_keeps {r : Reply} (hs : P s) : P (s.answer p r) := hP.keep_nil (s.setCommand_changes ..) hs

theorem ReadsOnly.handOver_keeps {source : Producer} {d : List (Port × EventRecord)} (hs : P s) :
    P (s.handOver source d) := hP.keep_nil (s.handOver_changes ..) hs

/-- The taking of a command keeps what its body keeps at a port that is UP. -/
theorem ReadsOnly.takeCommand_keeps {owns : Byte → Bool} {body : State → Port → Args → State × Reply} (hs : P s)
    (hbody : ∀ a, s.isUp p = true → P (body s p a).1) : P (s.takeCommand p owns body) := by
  rcases s.takeCommand_cases p owns body with ⟨he, -⟩ | ⟨k, -, -, hup, he⟩ | ⟨k, -, -, -, he⟩ <;> rw [he]
  · exact hs
  · exact hP.answer_keeps (hbody k.args hup)
  · exact hP.keep_nil (s.discard_changes p) hs

theorem ReadsOnly.releaseLines_keeps (hs : P s) : P (s.releaseLines p) := hP.keep_nil (s.releaseLines_changes p) hs

theorem ReadsOnly.readEdge_keeps {a : BitVec 15} {levels : BusLevels} (hs : P s)
    (hw : ∀ t : State, P t → t.Taken p → P (t.readCycle p a)) : P (s.readEdge p a levels) :=
  have hr := hP.releaseLines_keeps (p := p) hs
  busCycle_keeps hr (hw _ hr) fun _ => hP.keep_nil (State.setDataOut_changes ..) hr

theorem ReadsOnly.writeEdge_keeps {a : BitVec 15} {v : Word} {lanes : Lanes} {levels : BusLevels} (hs : P s)
    (hw : ∀ t : State, P t → t.Taken p → P (t.writeCycle p a v lanes.lo lanes.hi))
    (hc : ∀ t : State, P t → t.Taken p → P (t.registerWrite p (controlOffset a) v lanes.lo lanes.hi)) :
    P (s.writeEdge p a v lanes levels) :=
  have hr : P (s.releasedUnless p levels.otherLow) := hP.keep_nil (s.releasedUnless_changes ..) hs
  busCycle_keeps hr (hw _ hr) (hc _ hr)

theorem ReadsOnly.controlEdge_keeps {levels : ControlLevels} {write : State → State} (hs : P s)
    (hc : ∀ t : State, P t → t.Taken p → P (write t)) : P (s.controlEdge p levels write) :=
  have hr : P (s.releasedUnless p levels.rdLow) := hP.keep_nil (s.releasedUnless_changes ..) hs
  busCycle_keeps hr (fun _ => hr) (hc _ hr)

/-- A control write keeps what the writes of IE, PSEL and EVPOP keep. -/
theorem ReadsOnly.registerWrite_keeps {offset : Nat} {v : Word} {lo hi : Bool} (hs : P s)
    (hie : P (s.writeIe p v lo)) (hpsel : P (s.writePsel p v lo)) (hev : P (s.writeEvpop p lo hi)) :
    P (s.registerWrite p offset v lo hi) := by
  unfold State.registerWrite
  split
  · exact hie
  · exact hpsel
  · exact hP.keep_nil (s.writeCmd_changes ..) hs
  · exact hev
  · exact hP.keep_nil (s.setCommand_changes ..) hs

end

/-! ## Marks (R9) -/

theorem marksLegal_reads : ReadsOnly State.MarksLegal [.frame .mark, .engine] := fun s t h hs f => by
  have hm : (t.frame f).mark = (s.frame f).mark := h (.frame .mark) (by decide) f
  have he : t.copy.engine = s.copy.engine := h .engine (by decide)
  rw [hm, he]
  exact hs f

/-- The marks stay right where neither they nor the segment in flight change. -/
theorem State.MarksLegal.of_segment {s t : State} {l : List Part} (hs : s.MarksLegal) (h : s.Changes t l)
    (hl : l.contains (.frame .mark) = false) (he : t.copy.engine.segment? = s.copy.engine.segment?) :
    t.MarksLegal := fun f => by
  have hm : (t.frame f).mark = (s.frame f).mark := h.same (.frame .mark) hl f
  rw [hm, hs f, he]

@[simp] theorem State.finishJob_engine (s : State) (p : Port) : (s.finishJob p).copy.engine = .free := by
  unfold State.finishJob
  dsimp only
  split <;> rfl

@[simp] theorem State.request_engine (s : State) (e : EngineState) : (s.request e).copy.engine = e := rfl

@[simp] theorem State.endGrant_engine (s : State) : s.endGrant.copy.engine = s.copy.engine := rfl

@[simp] theorem State.wakeHeld_engine (s : State) : s.wakeHeld.copy.engine = s.copy.engine :=
  s.wakeHeld_changes.same .engine rfl

/-- After a fetch the engine waits for its first segment or writes back. -/
theorem State.validate_noSegment (s : State) (j : JobPlace) (d : Descriptor) :
    (s.validate j d).copy.engine.segment? = none := by
  unfold State.validate
  repeat' split
  all_goals rfl

theorem State.afterSegment_noSegment (s : State) (j : Job) : (s.afterSegment j).copy.engine.segment? = none := by
  unfold State.afterSegment
  repeat' split
  · rw [State.finishJob_engine]; rfl
  · rfl
  · rfl

/-- A segment in flight goes on through a closing; any other job has none (R124). -/
theorem State.closeJob_segment (s : State) (p : Port) :
    (s.closeJob p).copy.engine.segment? = s.copy.engine.segment? := by
  unfold State.closeJob
  split
  · split
    · rfl
    · rename_i he
      rw [State.finishJob_engine, he]; rfl
    · rename_i hnt hnw
      split
      · rfl
      · rw [State.finishJob_engine]
        cases he : s.copy.engine with
        | transferring j => exact absurd he (hnt j)
        | _ => rfl
  · rfl

theorem State.grantClaim_segment (s : State) (c : Claimant) :
    (s.grantClaim c).copy.engine.segment? = s.copy.engine.segment? := by
  unfold State.grantClaim
  dsimp only
  split
  · rename_i hreads
    split
    · rfl
    · rw [State.endGrant_engine, State.finishJob_engine]
      cases he : s.copy.engine with
      | transferring j => rw [he] at hreads; cases hreads
      | _ => rfl
  · rfl

theorem State.setMarks_frame (s : State) (j : Job) (on : Bool) (f : Frame) :
    (s.setMarks j on).frame f =
      if f = j.source ∨ f = j.dest then { s.frame f with mark := on } else s.frame f := by
  unfold State.setMarks
  simp only [State.setFrame_frame]
  by_cases hd : f = j.dest
  · subst hd
    by_cases hsrc : j.dest = j.source <;> simp [hsrc]
  · by_cases hsrc : f = j.source
    · subst hsrc
      simp [hd]
    · simp [hd, hsrc]

@[simp] theorem EngineState.segment?_transferring (j : Job) : (EngineState.transferring j).segment? = some j := rfl

/-- The marks of a segment that begins, where no mark was on. -/
theorem State.MarksLegal.begin {s : State} (hs : s.MarksLegal) (he : s.copy.engine.segment? = none) (j : Job) :
    ((s.setMarks j true).setEngine (.transferring j)).MarksLegal := fun f => by
  have hoff := hs f
  rw [he] at hoff
  rw [State.setEngine_frame, State.setMarks_frame, State.setEngine_copy_engine, EngineState.segment?_transferring]
  by_cases hf : f = j.source ∨ f = j.dest <;> simp_all

/-- With the marks of a segment's frames cleared, none is on. -/
theorem State.MarksLegal.end_segment {s t : State} {j : Job} (hs : s.MarksLegal) (he : s.copy.engine = .transferring j)
    (hm : ∀ f, (t.frame f).mark = ((s.setMarks j false).frame f).mark) (he' : t.copy.engine.segment? = none) :
    t.MarksLegal := fun f => by
  have hon := hs f
  rw [he] at hon
  rw [hm f, State.setMarks_frame, he']
  by_cases hf : f = j.source ∨ f = j.dest <;> simp_all

theorem State.refclk_keeps_marksLegal (s : State) (hs : s.MarksLegal) : s.refclk.MarksLegal :=
  marksLegal_reads.keep s.refclk_changes rfl hs

theorem exec_keeps_marksLegal (c : Instr) (s t : State) (h : exec c s = .next t) (hs : s.MarksLegal) :
    t.MarksLegal := by
  have hc := exec_changes h
  cases c <;> unfold exec at h
  case arbiterGrant happening =>
    refine whileRunning_keeps (P := State.MarksLegal) h hs fun _ => ?_
    cases happening with
    | arrival c =>
      dsimp only
      repeat' split
      · exact hs.of_segment ((s.setArbiter_changes _).trans (State.grantClaim_changes _ c)) rfl
          (State.grantClaim_segment _ c)
      · exact hs
      · exact hs
    | endOfGrant =>
      dsimp only
      repeat' split
      · exact hs.of_segment (s.grantClaim_changes _) rfl (s.grantClaim_segment _)
      · exact hs
      · exact hs
  case selection =>
    refine whileRunning_keeps (P := State.MarksLegal) h hs fun _ => ?_
    repeat' split
    · exact hs
    · exact hs
    · have hfree : s.copy.engine = .free := ‹_›
      exact hs.of_segment ((s.setPointer_changes _).trans (State.request_changes _ _)) rfl (by rw [hfree]; rfl)
    · exact hs
  case fetchEnd =>
    refine whileRunning_keeps (P := State.MarksLegal) h hs fun _ => ?_
    split
    case h_1 j he =>
      have hnone : s.copy.engine.segment? = none := by rw [he]; rfl
      dsimp only
      repeat' split
      · refine hs.of_segment ((s.finishJob_changes _).trans (State.endGrant_changes _)) rfl ?_
        rw [hnone, State.endGrant_engine, State.finishJob_engine]; rfl
      · refine hs.of_segment (((s.setRing_changes ..).trans (State.endGrant_changes _)).trans
          (State.validate_changes ..)) rfl ?_
        rw [hnone, State.validate_noSegment]
      · refine hs.of_segment (((s.setRing_changes ..).trans (State.endGrant_changes _)).trans
          (State.finishJob_changes ..)) rfl ?_
        rw [hnone, State.finishJob_engine]; rfl
      · exact hs
    · exact hs
  case segmentBegin =>
    refine whileRunning_keeps (P := State.MarksLegal) h hs fun _ => ?_
    split
    case h_1 j he =>
      have hnone : s.copy.engine.segment? = none := by rw [he]; rfl
      repeat' split
      · refine hs.of_segment ((s.finishJob_changes _).trans (State.endGrant_changes _)) rfl ?_
        rw [hnone, State.endGrant_engine, State.finishJob_engine]; rfl
      · exact hs.begin hnone j
      · exact hs.of_segment (s.endGrant_changes.trans (State.request_changes ..)) rfl hnone.symm
      · exact hs
    · exact hs
  case segmentEnd =>
    refine whileRunning_keeps (P := State.MarksLegal) h hs fun _ => ?_
    split
    case h_1 j he =>
      split
      · refine hs.end_segment (t := State.wakeHeld _) he (fun f => ?_) ?_
        · exact (((State.endGrant_changes _).trans (State.afterSegment_changes ..)).trans
            (State.wakeHeld_changes _)).same (.frame .mark) rfl f
        · rw [State.wakeHeld_engine, State.afterSegment_noSegment]
      · exact hs
    · exact hs
  case writeBackEnd =>
    refine whileRunning_keeps (P := State.MarksLegal) h hs fun _ => ?_
    split
    case h_1 w he =>
      dsimp only
      split
      · refine hs.of_segment (((((s.setMem_changes _).trans (State.setRing_changes ..)).trans
          (State.handOver_changes ..)).trans (State.finishJob_changes ..)).trans (State.endGrant_changes _)) rfl ?_
        rw [State.endGrant_engine, State.finishJob_engine, he]; rfl
      · exact hs
    · exact hs
  case copyEngineClosing p =>
    refine whileRunning_keeps (P := State.MarksLegal) h hs fun _ => ?_
    split
    · refine hs.of_segment (((s.setSession_changes p _ [.session .annCopy] fun k hk => ?_).trans
        (State.setRing_changes ..)).trans (State.closeJob_changes ..)) rfl (State.closeJob_segment ..)
      cases k <;> first | exact absurd (by decide) hk | exact SessionField.same_of_refl rfl
    · exact hs
  case rstAsserted =>
    cases h
    split
    · exact hs
    · intro f
      simp only [State.frame, sel_mapAll]
      rfl
  case rstRisingEdge qmode prst =>
    cases h
    split
    · intro f
      simp only [State.frame, State.atRisingEdge, sel_replicate]
      rfl
    · exact hs
  all_goals exact marksLegal_reads.keep hc rfl hs

end Sys2Proof.Machine
end

section
/-! SUPPORT. The pins and rejoin, the bounds of the queues, the units of a closed port and the tick count: every step keeps
each of them. -/

namespace Sys2Proof.Machine

/-! ## Pins (R169, R170) -/

/-- A port's session record agrees with the level of its PRST#. -/
def SessionRecord.PinAgrees (r : SessionRecord) : Prop :=
  (r.state = .up → r.prstLow = false) ∧ (r.state = .down → r.prstLow = true) ∧
    ∀ rejoin ∈ r.state.rejoin?, rejoin = !r.prstLow

theorem State.pinsLegal_iff {s : State} : s.PinsLegal ↔ ∀ p, (s.session p).PinAgrees := Iff.rfl

theorem pinsLegal_reads : ReadsOnly State.PinsLegal [.session .state, .session .prstLow] := fun s t h hs p => by
  have hst : (t.session p).state = (s.session p).state := h (.session .state) (by decide) p
  have hpin : (t.session p).prstLow = (s.session p).prstLow := h (.session .prstLow) (by decide) p
  rw [hst, hpin]
  exact hs p

theorem State.PinsLegal.setSession {s : State} (hs : s.PinsLegal) {p : Port} {r : SessionRecord} (hr : r.PinAgrees) :
    (s.setSession p r).PinsLegal := fun q => by
  rw [State.setSession_session]
  split
  · exact hr
  · exact hs q

/-- A record in CLOSING agrees with its pin where rejoin follows the pin. -/
theorem SessionRecord.pinAgrees_closing {r : SessionRecord} {rejoin : Bool} {step : TeardownStep}
    (h : r.state = .closing rejoin step) : r.PinAgrees ↔ rejoin = !r.prstLow := by
  simp [SessionRecord.PinAgrees, h, SessionState.rejoin?]

theorem SessionRecord.pinAgrees_up {r : SessionRecord} (h : r.state = .up) : r.PinAgrees ↔ r.prstLow = false := by
  simp [SessionRecord.PinAgrees, h, SessionState.rejoin?]

theorem SessionRecord.pinAgrees_down {r : SessionRecord} (h : r.state = .down) : r.PinAgrees ↔ r.prstLow = true := by
  simp [SessionRecord.PinAgrees, h, SessionState.rejoin?]

/-- Only one port's record is new, and it agrees with its pin. -/
theorem State.PinsLegal.of_port {s t : State} (hs : s.PinsLegal) {p : Port}
    (hq : ∀ q, q ≠ p → t.session q = s.session q) (hp : (t.session p).PinAgrees) : t.PinsLegal := fun q => by
  by_cases h : q = p
  · exact h ▸ hp
  · rw [hq q h]
    exact hs q

theorem State.enterUp_session_same (s : State) (p : Port) :
    (s.enterUp p).session p = { s.session p with
      state := .up, number := nextSession (s.session p).number,
      peerUp := some (nextSession (s.session p).number) } :=
  State.setSession_session_same ..

theorem State.enterUp_session_of_ne (s : State) {p q : Port} (h : q ≠ p) :
    (s.enterUp p).session q = s.session q :=
  State.setSession_session_of_ne _ _ _ _ h

theorem State.enterClosing_session_same (s : State) (p : Port) (rejoin : Bool) :
    (s.enterClosing p rejoin).session p = { s.session p with
      state := .closing rejoin .awaitJob, annEvent := true, annCommand := true, annWindow := true,
      annCopy := true } :=
  State.setSession_session_same ..

theorem State.enterClosing_session_of_ne (s : State) {p q : Port} (rejoin : Bool) (h : q ≠ p) :
    (s.enterClosing p rejoin).session q = s.session q :=
  State.setSession_session_of_ne _ _ _ _ h

theorem State.setPrst_session_same (s : State) (p : Port) (low : Bool) :
    (s.setPrst p low).session p = { s.session p with prstLow := low } :=
  State.setSession_session_same ..

theorem State.setPrst_session_of_ne (s : State) {p q : Port} (low : Bool) (h : q ≠ p) :
    (s.setPrst p low).session q = s.session q :=
  State.setSession_session_of_ne _ _ _ _ h

/-- An assertion of PRST# writes its own port's record alone. -/
theorem State.assertPrst_session_of_ne (s : State) {p q : Port} (h : q ≠ p) :
    (s.assertPrst p).session q = s.session q := by
  unfold State.assertPrst
  split
  · exact s.enterClosing_session_of_ne false h
  · exact State.setSession_session_of_ne _ _ _ _ h
  · rfl

theorem State.releasePrst_session_of_ne (s : State) {p q : Port} (h : q ≠ p) :
    (s.releasePrst p).session q = s.session q := by
  unfold State.releasePrst
  split
  · exact s.enterUp_session_of_ne h
  · exact State.setSession_session_of_ne _ _ _ _ h
  · rfl

/-- With PRST# low a port is CLOSING with rejoin off, or DOWN (R169). -/
theorem State.assertPrst_pinAgrees {s : State} {p : Port} (h : (s.session p).prstLow = true) :
    ((s.assertPrst p).session p).PinAgrees := by
  unfold State.assertPrst
  split
  · rw [State.enterClosing_session_same]
    exact (SessionRecord.pinAgrees_closing rfl).mpr (by simp [h])
  · rw [State.setSession_session_same]
    exact (SessionRecord.pinAgrees_closing rfl).mpr (by simp [h])
  · exact (SessionRecord.pinAgrees_down ‹_›).mpr h

/-- With PRST# high a port is CLOSING with rejoin on, or UP (R170). -/
theorem State.releasePrst_pinAgrees {s : State} {p : Port} (h : (s.session p).prstLow = false) :
    ((s.releasePrst p).session p).PinAgrees := by
  unfold State.releasePrst
  split
  · rw [State.enterUp_session_same]
    exact (SessionRecord.pinAgrees_up rfl).mpr h
  · rw [State.setSession_session_same]
    exact (SessionRecord.pinAgrees_closing rfl).mpr (by simp [h])
  · exact (SessionRecord.pinAgrees_up ‹_›).mpr h

theorem exec_keeps_pinsLegal (c : Instr) (s t : State) (h : exec c s = .next t) (hs : s.PinsLegal) :
    t.PinsLegal := by
  have hc := exec_changes h
  cases c <;> unfold exec at h
  case detach p =>
    refine whileRunning_keeps (P := State.PinsLegal) h hs fun _ => ?_
    refine pinsLegal_reads.takeCommand_keeps hs fun a hup => ?_
    have hpin := (SessionRecord.pinAgrees_up (State.isUp_iff.mp hup)).mp (hs p)
    exact pinsLegal_reads.keep (State.setDirMail_changes ..) rfl
      (hs.setSession ((SessionRecord.pinAgrees_closing rfl).mpr (by simp [hpin])))
  case prstAsserted p =>
    refine whileRunning_keeps (P := State.PinsLegal) h hs fun _ => ?_
    split
    · exact hs
    · refine hs.of_port (p := p) (fun q hq => ?_) ?_
      · exact (State.assertPrst_session_of_ne _ hq).trans (s.setPrst_session_of_ne true hq)
      · exact State.assertPrst_pinAgrees (s := s.setPrst p true) (by rw [State.setPrst_session_same])
  case prstReleased p =>
    refine whileRunning_keeps (P := State.PinsLegal) h hs fun _ => ?_
    split
    · refine hs.of_port (p := p) (fun q hq => ?_) ?_
      · exact (State.releasePrst_session_of_ne _ hq).trans (s.setPrst_session_of_ne false hq)
      · exact State.releasePrst_pinAgrees (s := s.setPrst p false) (by rw [State.setPrst_session_same])
    · exact hs
  case jobGone p =>
    refine whileRunning_keeps (P := State.PinsLegal) h hs fun _ => ?_
    repeat' split
    · rename_i rejoin he
      exact pinsLegal_reads.keep (State.setDirMail_changes ..) rfl
        (hs.setSession ((SessionRecord.pinAgrees_closing rfl).mpr ((SessionRecord.pinAgrees_closing he).mp (hs p))))
    · exact hs
    · exact hs
  case disposalDone p =>
    refine whileRunning_keeps (P := State.PinsLegal) h hs fun _ => ?_
    repeat' split
    · rename_i rejoin he hrejoin
      have hpin := (SessionRecord.pinAgrees_closing he).mp (hs p)
      refine hs.of_port (p := p) (fun q hq => ?_) ?_
      · exact (State.enterUp_session_of_ne _ hq).trans (State.setSession_session_of_ne _ _ _ _ hq)
      · rw [State.enterUp_session_same, State.setSession_session_same]
        exact (SessionRecord.pinAgrees_up rfl).mpr (by simp_all)
    · rename_i rejoin he hrejoin
      have hpin := (SessionRecord.pinAgrees_closing he).mp (hs p)
      refine hs.setSession ((SessionRecord.pinAgrees_down rfl).mpr ?_)
      simp_all
    · exact hs
    · exact hs
  case rstRisingEdge qmode prst =>
    cases h
    split
    · intro p
      simp only [State.session, State.atRisingEdge, sel_mapAll]
      cases sel prst p <;> simp [SessionRecord.reset, SessionState.rejoin?]
    · exact hs
  all_goals exact pinsLegal_reads.keep hc rfl hs

/-! ## Queues (R128) -/

theorem EventPort.place_length {q : EventPort} (h : q.ordinary.length ≤ 31) (e : EventRecord) :
    (q.place e).ordinary.length ≤ 31 := by
  unfold EventPort.place
  repeat' split
  · exact h
  · rename_i hlt
    simp only [Config.queueSize] at hlt
    simp only [List.length_append, List.length_singleton]
    omega
  · exact h

theorem EventPort.pop_length {q : EventPort} (h : q.ordinary.length ≤ 31) : q.pop.ordinary.length ≤ 31 := by
  unfold EventPort.pop
  split
  · rename_i he
    rw [he] at h
    exact (Nat.le_succ _).trans h
  · exact h

theorem queuesLegal_reads : ReadsOnly State.QueuesLegal [.queues] := fun s t h hs p => by
  have hq : t.queues = s.queues := h .queues (by decide)
  rw [State.queue, hq]
  exact hs p

theorem State.QueuesLegal.setQueue {s : State} (hs : s.QueuesLegal) {p : Port} {q : EventPort}
    (hq : q.ordinary.length ≤ 31) : (s.setQueue p q).QueuesLegal := fun y => by
  rw [State.setQueue_queue]
  split
  · exact hq
  · exact hs y

theorem State.QueuesLegal.arrive {s : State} (hs : s.QueuesLegal) (d : Port × EventRecord) :
    (s.arrive d).QueuesLegal := by
  unfold State.arrive
  split
  · exact hs.setQueue (EventPort.place_length (hs d.1) d.2)
  · exact hs

theorem State.QueuesLegal.arriveAll (l : List (Port × EventRecord)) :
    ∀ {s : State}, s.QueuesLegal → (s.arriveAll l).QueuesLegal := by
  induction l with
  | nil => exact fun hs => hs
  | cons d l ih => exact fun hs => ih (hs.arrive d)

theorem State.QueuesLegal.writeIe {s : State} (hs : s.QueuesLegal) (p : Port) (v : Word) (lo : Bool) :
    (s.writeIe p v lo).QueuesLegal := by
  unfold State.writeIe
  split
  · exact hs.setQueue (hs p)
  · exact hs

theorem State.QueuesLegal.writeEvpop {s : State} (hs : s.QueuesLegal) (p : Port) (lo hi : Bool) :
    (s.writeEvpop p lo hi).QueuesLegal := by
  unfold State.writeEvpop
  split
  · exact hs.setQueue (EventPort.pop_length (hs p))
  · exact hs

theorem State.QueuesLegal.writeEdge {s : State} (hs : s.QueuesLegal) (p : Port) (a : BitVec 15) (v : Word)
    (lanes : Lanes) (levels : BusLevels) : (s.writeEdge p a v lanes levels).QueuesLegal :=
  queuesLegal_reads.writeEdge_keeps hs
    (fun t ht _ => queuesLegal_reads.keep (t.writeCycle_changes ..) rfl ht)
    fun t ht _ => queuesLegal_reads.registerWrite_keeps ht (ht.writeIe _ _ _)
      (queuesLegal_reads.keep (t.writePsel_changes ..) rfl ht) (ht.writeEvpop _ _ _)

theorem exec_keeps_queuesLegal (c : Instr) (s t : State) (h : exec c s = .next t) (hs : s.QueuesLegal) :
    t.QueuesLegal := by
  have hc := exec_changes h
  cases c <;> unfold exec at h
  case post p =>
    refine whileRunning_keeps (P := State.QueuesLegal) h hs fun _ => ?_
    refine queuesLegal_reads.takeCommand_keeps hs fun a _ => ?_
    unfold postBody
    repeat' split
    · exact hs
    · exact hs
    all_goals exact hs.setQueue (EventPort.place_length (hs _) _)
  case ieWrite p v lanes levels =>
    exact whileRunning_keeps (P := State.QueuesLegal) h hs fun _ =>
      queuesLegal_reads.controlEdge_keeps hs fun t ht _ => ht.writeIe _ _ _
  case evpop p v lanes levels =>
    exact whileRunning_keeps (P := State.QueuesLegal) h hs fun _ =>
      queuesLegal_reads.controlEdge_keeps hs fun t ht _ => ht.writeEvpop _ _ _
  case registerWrite p a v lanes levels =>
    exact whileRunning_keeps (P := State.QueuesLegal) h hs fun _ => hs.writeEdge _ _ _ _ _
  case windowWrite p a v lanes levels =>
    exact whileRunning_keeps (P := State.QueuesLegal) h hs fun _ => hs.writeEdge _ _ _ _ _
  case eventArrival source =>
    refine whileRunning_keeps (P := State.QueuesLegal) h hs fun _ => ?_
    split
    · exact hs
    · exact State.QueuesLegal.arriveAll _ (queuesLegal_reads.keep (s.setHandovers_changes _) rfl hs)
  case peerUp p =>
    refine whileRunning_keeps (P := State.QueuesLegal) h hs fun _ => ?_
    split
    · exact hs
    · exact State.QueuesLegal.arriveAll _ hs
  case eventUnitClosing p =>
    refine whileRunning_keeps (P := State.QueuesLegal) h hs fun _ => ?_
    split
    · exact State.QueuesLegal.arriveAll _ (hs.setQueue (p := p) (Nat.zero_le 31))
    · exact hs
  case rstRisingEdge qmode prst =>
    cases h
    split
    · intro p
      simp only [State.queue, State.atRisingEdge, sel_replicate]
      exact Nat.zero_le 31
    · exact hs
  all_goals exact queuesLegal_reads.keep hc rfl hs

/-! ## The tick count (R199) -/

theorem timerLegal_reads : ReadsOnly State.TimerLegal [.tickCount] := fun s t h hs => by
  have ht : t.tickCount = s.tickCount := h .tickCount (by decide)
  rw [State.TimerLegal, ht]
  exact hs

theorem State.refclk_keeps_timerLegal (s : State) (hs : s.TimerLegal) : s.refclk.TimerLegal := by
  rcases s.refclk_cases with ⟨-, he⟩ | ⟨-, hlt, he⟩ | ⟨-, he⟩ <;> rw [he]
  · exact hs
  · exact hlt
  · exact timerLegal_reads.keep (State.takeTick_changes _) rfl
      (show (s.setTickCount 0).TimerLegal from Nat.zero_lt_succ _)

theorem exec_keeps_timerLegal (c : Instr) (s t : State) (h : exec c s = .next t) (hs : s.TimerLegal) :
    t.TimerLegal := by
  have hc := exec_changes h
  cases c <;> unfold exec at h
  case tick =>
    refine whileRunning_keeps (P := State.TimerLegal) h hs fun _ => ?_
    exact State.refclk_keeps_timerLegal _ (show s.awaitTick.TimerLegal from Nat.lt_succ_self _)
  case rstRisingEdge qmode prst =>
    cases h
    split
    · exact Nat.zero_lt_succ _
    · exact hs
  all_goals exact timerLegal_reads.keep hc rfl hs

end Sys2Proof.Machine
end

section
/-! SUPPORT. The Event Unit and the Window Unit of a closed port: their registers stay empty until the port is UP. -/

namespace Sys2Proof.Machine

theorem unitsLegal_reads : ReadsOnly State.UnitsLegal
    [.session .state, .session .annEvent, .session .annWindow, .rstLow, .queues, .window .registers] :=
  fun s t h hs p => by
    have hst : (t.session p).state = (s.session p).state := h (.session .state) (by decide) p
    have hev : (t.session p).annEvent = (s.session p).annEvent := h (.session .annEvent) (by decide) p
    have hwin : (t.session p).annWindow = (s.session p).annWindow := h (.session .annWindow) (by decide) p
    have hrst : t.rstLow = s.rstLow := h .rstLow (by decide)
    have hq : t.queues = s.queues := h .queues (by decide)
    obtain ⟨hprof, hact, hfault⟩ := h (.window .registers) (by decide) p
    have hclosing : t.isClosing p = s.isClosing p := by simp only [State.isClosing, hst]
    have hqueue : t.queue p = s.queue p := by simp only [State.queue, hq]
    rw [hclosing, hst, hev, hwin, hrst, hqueue, State.WindowEmpty, hprof, hact, hfault]
    exact hs p

/-- A session record is CLOSING. -/
def SessionRecord.Closing (r : SessionRecord) : Prop := ∃ rejoin step, r.state = .closing rejoin step

theorem State.isClosing_iff {s : State} {p : Port} : s.isClosing p = true ↔ (s.session p).Closing := by
  unfold State.isClosing SessionRecord.Closing
  split <;> simp_all

theorem State.isClosing_false_iff {s : State} {p : Port} : s.isClosing p = false ↔ ¬(s.session p).Closing := by
  rw [← State.isClosing_iff, Bool.not_eq_true]

section

variable {s : State} (hs : s.UnitsLegal) {p : Port}
include hs

/-- A queue may change at will while its port is UP, and else stays as the closing left it. -/
theorem State.UnitsLegal.setQueue {q : EventPort}
    (hq : (s.session p).state ≠ .up → s.queue p = EventPort.reset → q = EventPort.reset) :
    (s.setQueue p q).UnitsLegal := fun y => by
  refine ⟨(hs y).1, fun hup hrst => ⟨fun hann => ?_, ((hs y).2 hup hrst).2⟩⟩
  have hy := ((hs y).2 hup hrst).1 hann
  rw [State.setQueue_queue]
  split
  · subst y
    exact hq hup hy
  · exact hy

theorem State.UnitsLegal.setWindow {w : WindowUnit}
    (hw : (s.session p).state ≠ .up → s.WindowEmpty p →
      w.profiles = WindowUnit.reset.profiles ∧ w.active = 0 ∧ w.fault = none) :
    (s.setWindow p w).UnitsLegal := fun y => by
  refine ⟨(hs y).1, fun hup hrst => ⟨((hs y).2 hup hrst).1, fun hann => ?_⟩⟩
  have hy := ((hs y).2 hup hrst).2 hann
  rw [State.WindowEmpty, State.setWindow_window]
  split
  · subst y
    exact hw hup hy
  · exact hy

theorem State.UnitsLegal.setSession {r : SessionRecord}
    (hclosing : ¬r.Closing → r.annEvent = false ∧ r.annWindow = false)
    (hempty : r.state ≠ .up → s.rstLow = false →
      (r.annEvent = false → s.queue p = EventPort.reset) ∧ (r.annWindow = false → s.WindowEmpty p)) :
    (s.setSession p r).UnitsLegal := fun y => by
  rw [State.isClosing_false_iff, State.setSession_session]
  split
  · subst y
    exact ⟨hclosing, hempty⟩
  · exact ⟨fun h => (hs y).1 (State.isClosing_false_iff.mpr h), (hs y).2⟩

theorem State.UnitsLegal.arrive (d : Port × EventRecord) : (s.arrive d).UnitsLegal := by
  unfold State.arrive
  split
  · exact hs.setQueue fun hdown => absurd (State.isUp_iff.mp ‹_›) hdown
  · exact hs

theorem State.UnitsLegal.writeIe (v : Word) (lo : Bool) : (s.writeIe p v lo).UnitsLegal := by
  unfold State.writeIe
  split
  · exact hs.setQueue fun hdown => absurd (State.isUp_iff.mp (by simp_all)) hdown
  · exact hs

theorem State.UnitsLegal.writePsel (v : Word) (lo : Bool) : (s.writePsel p v lo).UnitsLegal := by
  unfold State.writePsel
  split
  · exact hs.setWindow fun hdown => absurd (State.isUp_iff.mp (by simp_all)) hdown
  · exact hs

/-- An empty queue stays empty at a write of EVPOP. -/
theorem State.UnitsLegal.writeEvpop (lo hi : Bool) : (s.writeEvpop p lo hi).UnitsLegal := by
  unfold State.writeEvpop
  split
  · exact hs.setQueue fun _ hreset => by rw [hreset]; rfl
  · exact hs

theorem State.UnitsLegal.recordFault {kind : FaultKind} {addr : Word} {f : Option Frame} {dir : Direction}
    (hup : kind ≠ .closing → (s.session p).state = .up) : (s.recordFault p kind addr f dir).UnitsLegal := by
  unfold State.recordFault
  dsimp only
  split
  · exact hs
  · have hset : (s.setWindow p { s.window p with
        fault := some (FaultRecord.noted (s.window p).fault kind addr f dir) }).UnitsLegal :=
      hs.setWindow fun hdown => absurd (hup ‹_›) hdown
    split
    · exact unitsLegal_reads.handOver_keeps hset
    · exact hset

end

theorem State.UnitsLegal.arriveAll (l : List (Port × EventRecord)) :
    ∀ {s : State}, s.UnitsLegal → (s.arriveAll l).UnitsLegal := by
  induction l with
  | nil => exact fun hs => hs
  | cons d l ih => exact fun hs => ih (hs.arrive d)

/-- A port that is not UP has its accesses faulted with CLOSING, and no other port (R86, R97). -/
theorem State.up_of_checkAccess {s : State} {p : Port} {a : BitVec 15} {dir : Direction} {kind : FaultKind}
    {f : Option Frame} (h : s.checkAccess p a dir = .faulted kind f) (hk : kind ≠ .closing) :
    (s.session p).state = .up := by
  unfold State.checkAccess at h
  split at h
  · cases h
    exact absurd rfl hk
  · exact State.isUp_iff.mp (by simp_all)

section

variable {s : State} (hs : s.UnitsLegal) {p : Port}
include hs

theorem State.UnitsLegal.takeRead (a : BitVec 15) (rdLow : Bool) : (s.takeRead p a rdLow).UnitsLegal := by
  unfold State.takeRead
  split
  · exact (unitsLegal_reads.keep (s.setBus_changes ..) rfl hs).recordFault fun hk => State.up_of_checkAccess (s := s) ‹_› hk
  · exact unitsLegal_reads.keep ((s.setBus_changes ..).trans (State.present_changes ..)) rfl hs

theorem State.UnitsLegal.takeWrite (a : BitVec 15) (v : Word) (lo hi : Bool) :
    (s.takeWrite p a v lo hi).UnitsLegal := by
  unfold State.takeWrite
  split
  · exact (unitsLegal_reads.keep (s.setBus_changes ..) rfl hs).recordFault fun hk => State.up_of_checkAccess (s := s) ‹_› hk
  · exact unitsLegal_reads.keep ((s.setBus_changes ..).trans (State.present_changes ..)) rfl hs

theorem State.UnitsLegal.readCycle (a : BitVec 15) : (s.readCycle p a).UnitsLegal := by
  unfold State.readCycle
  split
  · exact unitsLegal_reads.keep (s.setBus_changes ..) rfl hs
  · exact hs.takeRead a true

theorem State.UnitsLegal.writeCycle (a : BitVec 15) (v : Word) (lo hi : Bool) :
    (s.writeCycle p a v lo hi).UnitsLegal := by
  unfold State.writeCycle
  split
  · exact unitsLegal_reads.keep (s.setBus_changes ..) rfl hs
  · exact hs.takeWrite a v lo hi

theorem State.UnitsLegal.writeEdge (a : BitVec 15) (v : Word) (lanes : Lanes) (levels : BusLevels) :
    (s.writeEdge p a v lanes levels).UnitsLegal :=
  unitsLegal_reads.writeEdge_keeps hs (fun _ ht _ => ht.writeCycle a v _ _)
    fun _ ht _ => unitsLegal_reads.registerWrite_keeps ht (ht.writeIe v _) (ht.writePsel v _) (ht.writeEvpop _ _)

theorem State.UnitsLegal.enterClosing (rejoin : Bool) : (s.enterClosing p rejoin).UnitsLegal :=
  unitsLegal_reads.keep (State.setDirMail_changes ..) rfl
    (hs.setSession (fun hnot => absurd ⟨rejoin, .awaitJob, rfl⟩ hnot) fun _ _ => ⟨nofun, nofun⟩)

/-- A port enters UP with nothing of its closing on the way to the two units. -/
theorem State.UnitsLegal.enterUp (hev : (s.session p).annEvent = false) (hwin : (s.session p).annWindow = false) :
    (s.enterUp p).UnitsLegal :=
  unitsLegal_reads.keep ((State.setClosingTaken_changes ..).trans (State.setHandovers_changes ..)) rfl
    (hs.setSession (fun _ => ⟨hev, hwin⟩) fun hup => absurd rfl hup)

/-- A CLOSING port's record changes its state within CLOSING. -/
theorem State.UnitsLegal.staysClosing {rejoin : Bool} {step : TeardownStep} (hc : (s.session p).Closing)
    (r : SessionRecord) (hr : r.state = .closing rejoin step) (hev : r.annEvent = (s.session p).annEvent)
    (hwin : r.annWindow = (s.session p).annWindow) : (s.setSession p r).UnitsLegal := by
  refine hs.setSession (fun hnot => absurd ⟨rejoin, step, hr⟩ hnot) fun _ hrst => ?_
  rw [hev, hwin]
  obtain ⟨rejoin', step', hst⟩ := hc
  exact (hs p).2 (by rw [hst]; nofun) hrst

theorem State.UnitsLegal.assertPrst : (s.assertPrst p).UnitsLegal := by
  unfold State.assertPrst
  split
  · exact hs.enterClosing false
  · exact hs.staysClosing ⟨_, _, ‹_›⟩ _ rfl rfl rfl
  · exact hs

theorem State.UnitsLegal.releasePrst : (s.releasePrst p).UnitsLegal := by
  unfold State.releasePrst
  split
  · have hann := (hs p).1 (State.isClosing_false_iff.mpr fun ⟨_, _, hc⟩ => by simp_all)
    exact hs.enterUp hann.1 hann.2
  · exact hs.staysClosing ⟨_, _, ‹_›⟩ _ rfl rfl rfl
  · exact hs

end

theorem State.closingSettled_iff {s : State} {p : Port} : s.closingSettled p = true ↔
    (s.session p).annEvent = false ∧ (s.session p).annCommand = false ∧ (s.session p).annWindow = false ∧
      (s.session p).annCopy = false ∧ .closing p ∉ s.dirMail ∧ .dispose p ∉ s.dirMail := by
  simp [State.closingSettled, and_assoc]

theorem exec_keeps_unitsLegal (c : Instr) (s t : State) (h : exec c s = .next t) (hs : s.UnitsLegal) :
    t.UnitsLegal := by
  have hc := exec_changes h
  cases c <;> unfold exec at h
  case mapSet p =>
    refine whileRunning_keeps (P := State.UnitsLegal) h hs fun _ => unitsLegal_reads.takeCommand_keeps hs ?_
    intro a hup
    unfold mapSetBody
    split
    · exact hs.setWindow fun hdown => absurd (State.isUp_iff.mp hup) hdown
    · exact hs
  case mapClear p =>
    refine whileRunning_keeps (P := State.UnitsLegal) h hs fun _ => unitsLegal_reads.takeCommand_keeps hs ?_
    intro a hup
    unfold mapClearBody
    split
    · exact hs.setWindow fun hdown => absurd (State.isUp_iff.mp hup) hdown
    · exact hs
  case faultClear p =>
    exact whileRunning_keeps (P := State.UnitsLegal) h hs fun _ => unitsLegal_reads.takeCommand_keeps hs
      fun a hup => hs.setWindow fun hdown => absurd (State.isUp_iff.mp hup) hdown
  case post p =>
    refine whileRunning_keeps (P := State.UnitsLegal) h hs fun _ => unitsLegal_reads.takeCommand_keeps hs ?_
    intro a _
    unfold postBody
    repeat' split
    · exact hs
    · exact hs
    all_goals exact hs.setQueue fun hdown => absurd (State.isUp_iff.mp (by simp_all)) hdown
  case detach p =>
    exact whileRunning_keeps (P := State.UnitsLegal) h hs fun _ => unitsLegal_reads.takeCommand_keeps hs
      fun a _ => hs.enterClosing true
  case pselWrite p v lanes levels =>
    exact whileRunning_keeps (P := State.UnitsLegal) h hs fun _ =>
      unitsLegal_reads.controlEdge_keeps hs fun t ht _ => ht.writePsel v _
  case ieWrite p v lanes levels =>
    exact whileRunning_keeps (P := State.UnitsLegal) h hs fun _ =>
      unitsLegal_reads.controlEdge_keeps hs fun t ht _ => ht.writeIe v _
  case evpop p v lanes levels =>
    exact whileRunning_keeps (P := State.UnitsLegal) h hs fun _ =>
      unitsLegal_reads.controlEdge_keeps hs fun t ht _ => ht.writeEvpop _ _
  case registerWrite p a v lanes levels =>
    exact whileRunning_keeps (P := State.UnitsLegal) h hs fun _ => hs.writeEdge a v lanes levels
  case windowWrite p a v lanes levels =>
    exact whileRunning_keeps (P := State.UnitsLegal) h hs fun _ => hs.writeEdge a v lanes levels
  case windowRead p e =>
    refine whileRunning_keeps (P := State.UnitsLegal) h hs fun _ => ?_
    cases e with
    | falls a levels => exact unitsLegal_reads.readEdge_keeps hs fun _ ht _ => ht.readCycle a
    | rises => exact unitsLegal_reads.releaseLines_keeps hs
  case delayedWindowAccess p rdLow =>
    refine whileRunning_keeps (P := State.UnitsLegal) h hs fun _ => ?_
    repeat' split
    · exact hs.takeRead _ _
    · exact hs.takeWrite _ _ _ _
    · exact hs
  case eventArrival source =>
    refine whileRunning_keeps (P := State.UnitsLegal) h hs fun _ => ?_
    split
    · exact hs
    · exact State.UnitsLegal.arriveAll _ (unitsLegal_reads.keep (s.setHandovers_changes _) rfl hs)
  case peerUp p =>
    refine whileRunning_keeps (P := State.UnitsLegal) h hs fun _ => ?_
    split
    · exact hs
    · refine State.UnitsLegal.arriveAll _ (unitsLegal_reads.keep (l' := []) (State.setSession_changes _ _ _ _ ?_) rfl hs)
      intro k _
      cases k <;> rfl
  case prstAsserted p =>
    refine whileRunning_keeps (P := State.UnitsLegal) h hs fun _ => ?_
    split
    · exact hs
    · have hpin := (unitsLegal_reads.keep (s.setPrst_changes p true) rfl hs).assertPrst (p := p)
      refine hpin.setWindow fun hup hempty => ?_
      rwa [State.WindowEmpty, State.assertPrst_window] at hempty
  case prstReleased p =>
    refine whileRunning_keeps (P := State.UnitsLegal) h hs fun _ => ?_
    split
    · exact (unitsLegal_reads.keep (s.setPrst_changes p false) rfl hs).releasePrst
    · exact hs
  case eventUnitClosing p =>
    refine whileRunning_keeps (P := State.UnitsLegal) h hs fun _ => ?_
    split
    · refine State.UnitsLegal.arriveAll _ ((hs.setQueue (p := p) fun _ _ => rfl).setSession (fun hnot => ?_) ?_)
      · exact ⟨rfl, ((hs p).1 (State.isClosing_false_iff.mpr hnot)).2⟩
      · exact fun hup hrst => ⟨fun _ => State.setQueue_queue_same .., ((hs p).2 hup hrst).2⟩
    · exact hs
  case windowUnitClosing p =>
    refine whileRunning_keeps (P := State.UnitsLegal) h hs fun _ => ?_
    split
    · have hw : (s.setWindow p { s.window p with
          profiles := WindowUnit.reset.profiles, active := 0, fault := none }).UnitsLegal :=
        hs.setWindow fun _ _ => ⟨rfl, rfl, rfl⟩
      refine hw.setSession (fun hnot => ⟨((hs p).1 (State.isClosing_false_iff.mpr hnot)).1, rfl⟩) fun hup hrst => ?_
      refine ⟨((hs p).2 hup hrst).1, fun _ => ?_⟩
      rw [State.WindowEmpty, State.setWindow_window_same]
      exact ⟨rfl, rfl, rfl⟩
    · exact hs
  case jobGone p =>
    refine whileRunning_keeps (P := State.UnitsLegal) h hs fun _ => ?_
    repeat' split
    · exact unitsLegal_reads.keep (State.setDirMail_changes ..) rfl (hs.staysClosing ⟨_, _, ‹_›⟩ _ rfl rfl rfl)
    · exact hs
    · exact hs
  case disposalDone p =>
    refine whileRunning_keeps (P := State.UnitsLegal) h hs fun _ => ?_
    split
    · rename_i hdone
      obtain ⟨hev, -, hwin, -⟩ := State.closingSettled_iff.mp (by simp_all : s.closingSettled p = true)
      split
      · rename_i rejoin he
        have hdown : (s.setSession p { s.session p with state := .down, disposalDone := false }).UnitsLegal :=
          hs.setSession (fun _ => ⟨hev, hwin⟩) fun _ hrst => (hs p).2 (by rw [he]; nofun) hrst
        dsimp only
        split
        · exact hdown.enterUp (by rwa [State.setSession_session_same]) (by rwa [State.setSession_session_same])
        · exact hdown
      · exact hs
    · exact hs
  case rstAsserted =>
    cases h
    split
    · exact hs
    · intro p
      refine ⟨fun _ => ?_, fun _ hrst => absurd hrst nofun⟩
      simp only [State.session, sel_mapAll]
      exact ⟨rfl, rfl⟩
  case rstRisingEdge qmode prst =>
    cases h
    split
    · intro p
      simp only [State.session, State.queue, State.window, State.WindowEmpty, State.atRisingEdge, sel_mapAll,
        sel_replicate]
      simp [SessionRecord.reset, WindowUnit.reset]
    · exact hs
  all_goals exact unitsLegal_reads.keep hc rfl hs

/-! ## The statement -/

/-- Settles O56: each of the five conditions reads few parts of the state, and only the commands that write one of them can
touch it. -/
theorem stepKeepsPinsMarksQueuesUnits : Obligations.StepKeepsPinsMarksQueuesUnits := fun _ _ h =>
  ⟨step_keeps pinsLegal_reads rfl (fun s hs => pinsLegal_reads.keep s.refclk_changes rfl hs) exec_keeps_pinsLegal h,
    step_keeps marksLegal_reads rfl State.refclk_keeps_marksLegal exec_keeps_marksLegal h,
    step_keeps queuesLegal_reads rfl (fun s hs => queuesLegal_reads.keep s.refclk_changes rfl hs)
      exec_keeps_queuesLegal h,
    step_keeps unitsLegal_reads rfl (fun s hs => unitsLegal_reads.keep s.refclk_changes rfl hs)
      exec_keeps_unitsLegal h,
    step_keeps timerLegal_reads rfl State.refclk_keeps_timerLegal exec_keeps_timerLegal h⟩

end Sys2Proof.Machine
end

section
/-! SUPPORT. The window buses and the claims at the arbiter: one access of a port in flight, and one claim of a claimant
while it needs the array. -/

namespace Sys2Proof.Machine

/-! ## The buses (R85, R187 to R189, R192) -/

/-- A port's bus is legal at the level of its PRST#. -/
def WindowUnit.BusLegal (prstLow : Bool) (w : WindowUnit) : Prop :=
  (w.reading.isSome = true → w.hold = none ∧ w.delayed = none) ∧ (prstLow = true → w.delayed = none) ∧
    (∀ place ∈ w.reading, place.offset.toNat % 2 = 0) ∧ ∀ h ∈ w.hold, h.place.offset.toNat % 2 = 0

theorem State.busesLegal_iff {s : State} :
    s.BusesLegal ↔ ∀ p, (s.window p).BusLegal (s.session p).prstLow := Iff.rfl

theorem busesLegal_reads :
    ReadsOnly State.BusesLegal [.window .hold, .window .reading, .window .delayed, .session .prstLow] :=
  fun s t h hs p => by
    have hhold : (t.window p).hold = (s.window p).hold := h (.window .hold) (by decide) p
    have hread : (t.window p).reading = (s.window p).reading := h (.window .reading) (by decide) p
    have hdel : (t.window p).delayed = (s.window p).delayed := h (.window .delayed) (by decide) p
    have hpin : (t.session p).prstLow = (s.session p).prstLow := h (.session .prstLow) (by decide) p
    rw [hhold, hread, hdel, hpin]
    exact hs p

/-- The word that an access reaches is at an even offset (R75). -/
theorem offsetOf_even (a : BitVec 15) : (offsetOf a).toNat % 2 = 0 := by
  have ha := a.isLt
  simp only [offsetOf, BitVec.extractLsb'_toNat, byteAddr_eq, BitVec.toNat_ofNat]
  omega

/-- A performed access is to the word that its address lines name. -/
theorem State.checkAccess_offset {s : State} {p : Port} {a : BitVec 15} {dir : Direction} {place : WordPlace}
    (h : s.checkAccess p a dir = .performed place) : place.offset = offsetOf a := by
  unfold State.checkAccess at h
  split at h
  · cases h
  · split at h
    · cases h
    · unfold checkRights at h
      repeat' split at h
      all_goals cases h
      rfl

section

variable {s : State} (hs : s.BusesLegal) {p : Port}
include hs

theorem State.BusesLegal.setWindow {w : WindowUnit} (hw : w.BusLegal (s.session p).prstLow) :
    (s.setWindow p w).BusesLegal := fun q => by
  rw [State.setWindow_window]
  split
  · subst q
    exact hw
  · exact hs q

/-- A bus with no access in flight and none delayed is legal. -/
theorem State.BusesLegal.setBus_idle {data : Option Word} : (s.setBus p data none none none).BusesLegal :=
  hs.setWindow ⟨nofun, fun _ => rfl, nofun, nofun⟩

/-- A read begins on a bus with no other access. -/
theorem State.BusesLegal.takeRead (hhold : (s.window p).hold = none) (a : BitVec 15) (rdLow : Bool) :
    (s.takeRead p a rdLow).BusesLegal := by
  unfold State.takeRead
  rw [hhold]
  split
  · exact busesLegal_reads.keep (State.recordFault_changes ..) rfl hs.setBus_idle
  · rename_i place hplace
    refine busesLegal_reads.keep (State.present_changes ..) rfl (hs.setWindow ⟨fun _ => ⟨rfl, rfl⟩, fun _ => rfl, ?_, nofun⟩)
    rintro _ ⟨⟩
    rw [State.checkAccess_offset hplace]
    exact offsetOf_even a

theorem State.BusesLegal.takeWrite (hhold : (s.window p).hold = none) (a : BitVec 15) (v : Word) (lo hi : Bool) :
    (s.takeWrite p a v lo hi).BusesLegal := by
  unfold State.takeWrite
  rw [hhold]
  split
  · exact busesLegal_reads.keep (State.recordFault_changes ..) rfl hs.setBus_idle
  · rename_i place hplace
    refine busesLegal_reads.keep (State.present_changes ..) rfl (hs.setWindow ⟨nofun, fun _ => rfl, nofun, ?_⟩)
    rintro _ ⟨⟩
    rw [State.checkAccess_offset hplace]
    exact offsetOf_even a

/-- A cycle that is taken while the hold is occupied waits behind it. -/
theorem State.BusesLegal.delay (ht : s.Taken p) (d : DelayedAccess) : (s.delay p d).BusesLegal := by
  obtain ⟨-, -, hpin, hread, -⟩ := ht
  refine hs.setWindow ⟨?_, fun hlow => absurd (hpin.symm.trans hlow) nofun, (hs p).2.2.1, (hs p).2.2.2⟩
  rw [hread]
  exact nofun

theorem State.BusesLegal.readCycle (ht : s.Taken p) (a : BitVec 15) : (s.readCycle p a).BusesLegal := by
  unfold State.readCycle
  split
  · exact hs.delay ht _
  · exact hs.takeRead (by simp_all) a true

theorem State.BusesLegal.writeCycle (ht : s.Taken p) (a : BitVec 15) (v : Word) (lo hi : Bool) :
    (s.writeCycle p a v lo hi).BusesLegal := by
  unfold State.writeCycle
  split
  · exact hs.delay ht _
  · exact hs.takeWrite (by simp_all) a v lo hi

theorem State.BusesLegal.writeEdge (a : BitVec 15) (v : Word) (lanes : Lanes) (levels : BusLevels) :
    (s.writeEdge p a v lanes levels).BusesLegal :=
  busesLegal_reads.writeEdge_keeps hs (fun _ ht htaken => ht.writeCycle htaken a v _ _)
    fun t ht _ => busesLegal_reads.keep (t.registerWrite_changes ..) rfl ht

end

theorem exec_keeps_busesLegal (c : Instr) (s t : State) (h : exec c s = .next t) (hs : s.BusesLegal) :
    t.BusesLegal := by
  have hc := exec_changes h
  cases c <;> unfold exec at h
  case registerWrite p a v lanes levels =>
    exact whileRunning_keeps (P := State.BusesLegal) h hs fun _ => hs.writeEdge a v lanes levels
  case windowWrite p a v lanes levels =>
    exact whileRunning_keeps (P := State.BusesLegal) h hs fun _ => hs.writeEdge a v lanes levels
  case windowRead p e =>
    refine whileRunning_keeps (P := State.BusesLegal) h hs fun _ => ?_
    cases e with
    | falls a levels => exact busesLegal_reads.readEdge_keeps hs fun _ ht htaken => ht.readCycle htaken a
    | rises => exact busesLegal_reads.releaseLines_keeps hs
  case delayedWindowAccess p rdLow =>
    refine whileRunning_keeps (P := State.BusesLegal) h hs fun _ => ?_
    repeat' split
    · exact hs.takeRead ‹_› _ _
    · exact hs.takeWrite ‹_› _ _ _ _
    · exact hs
  case readCarriedOut p rdLow =>
    refine whileRunning_keeps (P := State.BusesLegal) h hs fun _ => ?_
    split
    · exact hs
    · split
      · exact busesLegal_reads.keep (State.endGrant_changes _) rfl
          (hs.setWindow ⟨nofun, (hs p).2.1, nofun, (hs p).2.2.2⟩)
      · exact hs
  case writeCarriedOut p =>
    refine whileRunning_keeps (P := State.BusesLegal) h hs fun _ => ?_
    repeat' split
    · exact hs
    · have hm := busesLegal_reads.keep (s.setMem_changes (Memory.writeLanes s.mem ‹_›)) rfl hs
      exact busesLegal_reads.keep (State.endGrant_changes _) rfl
        (hm.setWindow ⟨fun hread => ⟨rfl, ((hs p).1 hread).2⟩, (hs p).2.1, (hs p).2.2.1, nofun⟩)
    · exact hs
  case prstAsserted p =>
    refine whileRunning_keeps (P := State.BusesLegal) h hs fun _ => ?_
    split
    · exact hs
    · intro q
      have hpin : ((((s.setPrst p true).assertPrst p).setWindow p (s.window p).prstAsserted).session q).prstLow =
          ((s.setPrst p true).session q).prstLow :=
        ((s.setPrst p true).assertPrst_changes p).same (.session .prstLow) rfl q
      rw [hpin, State.setWindow_window, State.assertPrst_window]
      split
      · exact ⟨fun hread => ⟨((hs p).1 hread).1, rfl⟩, fun _ => rfl, (hs p).2.2⟩
      · rw [State.setPrst_session_of_ne _ _ ‹_›]
        exact hs q
  case prstReleased p =>
    refine whileRunning_keeps (P := State.BusesLegal) h hs fun _ => ?_
    split
    · refine busesLegal_reads.keep (State.releasePrst_changes _ p) rfl fun q => ?_
      by_cases hq : q = p
      · subst q
        rw [State.setPrst_session_same]
        exact ⟨(hs p).1, nofun, (hs p).2.2⟩
      · rw [State.setPrst_session_of_ne _ _ hq]
        exact hs q
    · exact hs
  case rstAsserted =>
    cases h
    split
    · exact hs
    · intro p
      simp only [State.window, sel_mapAll]
      exact ⟨nofun, fun _ => rfl, nofun, nofun⟩
  case rstRisingEdge qmode prst =>
    cases h
    split
    · intro p
      simp only [State.window, State.atRisingEdge, sel_replicate]
      exact ⟨nofun, fun _ => rfl, nofun, nofun⟩
    · exact hs
  all_goals exact busesLegal_reads.keep hc rfl hs

/-! ## The claims (R193) -/

@[simp] theorem ArrayState.ended_beq_held (c : Claimant) : (ArrayState.ended == .held c) = false :=
  beq_eq_false_iff_ne.mpr nofun

@[simp] theorem ArrayState.free_beq_held (c : Claimant) : (ArrayState.free == .held c) = false :=
  beq_eq_false_iff_ne.mpr nofun

@[simp] theorem ArrayState.held_beq_held (c c' : Claimant) : (ArrayState.held c == .held c') = (c == c') := by
  rw [Bool.eq_iff_iff]
  simp

/-- How many claims of a claimant the arbiter has. -/
def Arbiter.claims (b : Arbiter) (c : Claimant) : Nat :=
  b.presented.count c + b.waiting.count c + (b.array == .held c).toNat

theorem State.claims_eq (s : State) (c : Claimant) : s.claims c = s.arbiter.claims c := rfl

/-- Each claimant has the claims that it needs. -/
def State.ClaimsMatch (s : State) : Prop := ∀ c, s.arbiter.claims c = (s.needsArray c).toNat

theorem State.claimsLegal_iff {s : State} : s.ClaimsLegal ↔ (s.rstLow = false → s.ClaimsMatch) := by
  refine forall_congr' fun _ => ⟨fun ⟨hport, hcopy, hscrub⟩ c => ?_, fun h => ⟨fun p => h _, h _, h _⟩⟩
  cases c with
  | port p => exact hport p
  | copy => exact hcopy
  | scrub => exact hscrub

/-- The parts that decide whether a claimant needs the array. -/
def Claimant.parts : Claimant → List Part
  | .port _ => [.window .hold, .window .reading]
  | .copy => [.engine]
  | .scrub => [.scrubPhase]

/-- A change of other parts leaves a claimant's need as it is. -/
theorem State.Changes.needs {s t : State} {l : List Part} (h : s.Changes t l) (c : Claimant)
    (hl : partsApart (Claimant.parts c) l = true) : t.needsArray c = s.needsArray c := by
  cases c with
  | port p =>
    simp only [partsApart, Claimant.parts, List.all_cons, List.all_nil, Bool.and_true, Bool.and_eq_true,
      Bool.not_eq_true'] at hl
    have hhold : (t.window p).hold = (s.window p).hold := h.same (.window .hold) hl.1 p
    have hread : (t.window p).reading = (s.window p).reading := h.same (.window .reading) hl.2 p
    simp only [State.needsArray, hhold, hread]
  | copy =>
    have heng : t.copy.engine = s.copy.engine := h.same .engine (by simpa [partsApart, Claimant.parts] using hl)
    simp only [State.needsArray, heng]
  | scrub =>
    obtain ⟨hphase, -⟩ := h.same .scrubPhase (by simpa [partsApart, Claimant.parts] using hl)
    simp only [State.needsArray, hphase]

/-- A change of the engine alone leaves every other claimant's need as it is. -/
theorem State.Changes.needs_of_ne_copy {s t : State} {l : List Part} (h : s.Changes t l)
    (hl : partsApart [.window .hold, .window .reading, .scrubPhase] l = true) (c : Claimant) (hc : c ≠ .copy) :
    t.needsArray c = s.needsArray c := by
  cases c with
  | copy => exact absurd rfl hc
  | _ => exact h.needs _ (by simp_all [partsApart, Claimant.parts])

theorem State.Changes.needs_of_ne_scrub {s t : State} {l : List Part} (h : s.Changes t l)
    (hl : partsApart [.window .hold, .window .reading, .engine] l = true) (c : Claimant) (hc : c ≠ .scrub) :
    t.needsArray c = s.needsArray c := by
  cases c with
  | scrub => exact absurd rfl hc
  | _ => exact h.needs _ (by simp_all [partsApart, Claimant.parts])

theorem State.setWindow_needs_of_ne (s : State) (p : Port) (w : WindowUnit) (c : Claimant) (hc : c ≠ .port p) :
    (s.setWindow p w).needsArray c = s.needsArray c := by
  cases c with
  | port q => simp only [State.needsArray, State.setWindow_window_of_ne _ _ _ q fun h => hc (h ▸ rfl)]
  | _ => rfl

theorem State.setWindow_needs_same (s : State) (p : Port) (w : WindowUnit) :
    (s.setWindow p w).needsArray (.port p) = (w.reading.isSome || w.hold.isSome) := by
  simp only [State.needsArray, State.setWindow_window_same]

theorem claimsMatch_reads :
    ReadsOnly State.ClaimsMatch [.arbiter, .window .hold, .window .reading, .engine, .scrubPhase] :=
  fun s t h hs c => by
    have harb : t.arbiter = s.arbiter := h .arbiter (by decide)
    have hhold : ∀ p, (t.window p).hold = (s.window p).hold := h (.window .hold) (by decide)
    have hread : ∀ p, (t.window p).reading = (s.window p).reading := h (.window .reading) (by decide)
    have heng : t.copy.engine = s.copy.engine := h .engine (by decide)
    obtain ⟨hphase, -⟩ := h .scrubPhase (by decide)
    have hneeds : t.needsArray c = s.needsArray c := by
      cases c <;> simp only [State.needsArray, hhold, hread, heng, hphase]
    rw [harb, hneeds]
    exact hs c

theorem claimsLegal_reads :
    ReadsOnly State.ClaimsLegal [.rstLow, .arbiter, .window .hold, .window .reading, .engine, .scrubPhase] :=
  fun s t h hs => by
    have hrst : t.rstLow = s.rstLow := h .rstLow (by decide)
    rw [State.claimsLegal_iff] at hs ⊢
    rw [hrst]
    exact fun hr => claimsMatch_reads s t (fun x hx => h x (List.mem_cons_of_mem _ hx)) (hs hr)

section

variable {s t : State} (hs : s.ClaimsMatch) {c : Claimant}
include hs

/-- A claimant that begins to need the array presents its claim. -/
theorem State.ClaimsMatch.start (ha : t.arbiter = (s.present c).arbiter) (h : s.needsArray c = false)
    (h' : t.needsArray c = true) (hne : ∀ c', c' ≠ c → t.needsArray c' = s.needsArray c') : t.ClaimsMatch := fun c' => by
  have hold := hs c'
  have hadd : t.arbiter.claims c' = s.arbiter.claims c' + [c].count c' := by
    rw [ha]
    simp only [Arbiter.claims, State.present, State.setArbiter_arbiter, List.count_append]
    omega
  rw [hadd, hold]
  by_cases hc : c' = c
  · subst hc
    simp [h, h']
  · simp [hne c' hc, Ne.symm hc]

/-- A claimant that ends its grant needs the array no longer. -/
theorem State.ClaimsMatch.finish (hh : s.holds c = true) (ha : t.arbiter = s.endGrant.arbiter)
    (h' : t.needsArray c = false) (hne : ∀ c', c' ≠ c → t.needsArray c' = s.needsArray c') : t.ClaimsMatch := fun c' => by
  have hheld : s.arbiter.array = .held c := beq_iff_eq.mp hh
  have hc' := hs c'
  simp only [Arbiter.claims, hheld] at hc'
  rw [ha]
  simp only [Arbiter.claims, State.endGrant, State.setArbiter_arbiter]
  by_cases hc : c' = c
  · subst hc
    have : (s.needsArray c').toNat ≤ 1 := Bool.toNat_le _
    simp_all
    omega
  · rw [hne c' hc, ← hc']
    simp [Ne.symm hc]

/-- A claimant that ends its grant and still needs the array presents its claim again. -/
theorem State.ClaimsMatch.again (hh : s.holds c = true) (ha : t.arbiter = (s.endGrant.present c).arbiter)
    (h' : t.needsArray c = true) (hne : ∀ c', c' ≠ c → t.needsArray c' = s.needsArray c') : t.ClaimsMatch := fun c' => by
  have hheld : s.arbiter.array = .held c := beq_iff_eq.mp hh
  have hc' := hs c'
  simp only [Arbiter.claims, hheld] at hc'
  rw [ha]
  simp only [Arbiter.claims, State.present, State.endGrant, State.setArbiter_arbiter, List.count_append]
  by_cases hc : c' = c
  · subst hc
    have : (s.needsArray c').toNat ≤ 1 := Bool.toNat_le _
    simp_all
    omega
  · rw [hne c' hc, ← hc']
    simp [Ne.symm hc]

/-- A claimant that needs the array no longer withdraws the claim that it has not been granted. -/
theorem State.ClaimsMatch.withdraw (hh : s.holds c = false) (ha : t.arbiter = (s.withdrawClaim c).arbiter)
    (h : s.needsArray c = true) (h' : t.needsArray c = false)
    (hne : ∀ c', c' ≠ c → t.needsArray c' = s.needsArray c') : t.ClaimsMatch := fun c' => by
  have hc' := hs c'
  have hheld : (s.arbiter.array == .held c) = false := hh
  rw [ha]
  simp only [Arbiter.claims, State.withdrawClaim, State.setArbiter_arbiter] at hc' ⊢
  by_cases hc : c' = c
  · subst hc
    rw [h, hheld] at hc'
    simp only [Bool.toNat_true, Bool.toNat_false] at hc'
    rw [h', hheld, List.count_erase_self, List.count_erase_self]
    simp only [Bool.toNat_false]
    omega
  · rw [hne c' hc, ← hc', List.count_erase_of_ne hc, List.count_erase_of_ne hc]

/-- Neither the arbiter nor a claimant's need changes. -/
theorem State.ClaimsMatch.congr (ha : t.arbiter = s.arbiter) (hn : ∀ c', t.needsArray c' = s.needsArray c') :
    t.ClaimsMatch := fun c' => by rw [ha, hn, hs c']

end

/-! ### The window accesses -/

section

variable {s : State} (hs : s.ClaimsMatch) {p : Port}
include hs

/-- A bus without an access in flight stays without one. -/
theorem State.ClaimsMatch.setBus_idle (hread : (s.window p).reading = none) (hhold : (s.window p).hold = none)
    (data : Option Word) (delayed : Option DelayedAccess) : (s.setBus p data none delayed none).ClaimsMatch := by
  refine hs.congr rfl fun c => ?_
  by_cases hc : c = .port p
  · subst hc
    rw [State.setBus, State.setWindow_needs_same]
    simp [State.needsArray, hread, hhold]
  · exact State.setWindow_needs_of_ne _ _ _ _ hc

/-- A performed access presents its port's claim. -/
theorem State.ClaimsMatch.setBus_start (hread : (s.window p).reading = none) (hhold : (s.window p).hold = none)
    (data : Option Word) (reading : Option WordPlace) (delayed : Option DelayedAccess) (hold : Option HeldWrite)
    (h : (reading.isSome || hold.isSome) = true) :
    ((s.setBus p data reading delayed hold).present (.port p)).ClaimsMatch := by
  refine hs.start rfl (c := .port p) (by simp [State.needsArray, hread, hhold]) ?_ fun c hc => ?_
  · exact (State.setWindow_needs_same _ _ _).trans h
  · exact State.setWindow_needs_of_ne _ _ _ _ hc

theorem State.ClaimsMatch.takeRead (hread : (s.window p).reading = none) (hhold : (s.window p).hold = none)
    (a : BitVec 15) (rdLow : Bool) : (s.takeRead p a rdLow).ClaimsMatch := by
  unfold State.takeRead
  split
  · rw [hhold]
    exact claimsMatch_reads.keep (State.recordFault_changes ..) rfl (hs.setBus_idle hread hhold _ _)
  · exact hs.setBus_start hread hhold _ _ _ _ rfl

theorem State.ClaimsMatch.takeWrite (hread : (s.window p).reading = none) (hhold : (s.window p).hold = none)
    (a : BitVec 15) (v : Word) (lo hi : Bool) : (s.takeWrite p a v lo hi).ClaimsMatch := by
  unfold State.takeWrite
  split
  · rw [hhold]
    exact claimsMatch_reads.keep (State.recordFault_changes ..) rfl (hs.setBus_idle hread hhold _ _)
  · exact hs.setBus_start hread hhold _ _ _ _ rfl

theorem State.ClaimsMatch.delay (d : DelayedAccess) : (s.delay p d).ClaimsMatch := by
  refine claimsMatch_reads.keep (l' := [.window .delayed]) (s.setWindow_changes p _ _ fun k hk => ?_) rfl hs
  cases k <;> first | exact absurd (by decide) hk | exact WindowField.same_of_refl rfl

theorem State.ClaimsMatch.readCycle (ht : s.Taken p) (a : BitVec 15) : (s.readCycle p a).ClaimsMatch := by
  unfold State.readCycle
  split
  · exact hs.delay _
  · exact hs.takeRead ht.2.2.2.1 (by simp_all) a true

theorem State.ClaimsMatch.writeCycle (ht : s.Taken p) (a : BitVec 15) (v : Word) (lo hi : Bool) :
    (s.writeCycle p a v lo hi).ClaimsMatch := by
  unfold State.writeCycle
  split
  · exact hs.delay _
  · exact hs.takeWrite ht.2.2.2.1 (by simp_all) a v lo hi

theorem State.ClaimsMatch.writeEdge (a : BitVec 15) (v : Word) (lanes : Lanes) (levels : BusLevels) :
    (s.writeEdge p a v lanes levels).ClaimsMatch :=
  claimsMatch_reads.writeEdge_keeps hs (fun _ ht htaken => ht.writeCycle htaken a v _ _)
    fun t ht _ => claimsMatch_reads.keep (t.registerWrite_changes ..) rfl ht

/-- An access that has been carried out leaves the bus without one. -/
theorem State.ClaimsMatch.carriedOut (hh : s.holds (.port p) = true) (w : WindowUnit) (hread : w.reading = none)
    (hhold : w.hold = none) : ((s.setWindow p w).endGrant).ClaimsMatch := by
  refine hs.finish hh rfl ?_ fun c hc => State.setWindow_needs_of_ne s p w c hc
  exact (State.setWindow_needs_same s p w).trans (by simp [hread, hhold])

/-! ### The scrub engine -/

/-- Taking up the head presents a claim exactly where a scrub begins. -/
theorem State.ClaimsMatch.takeHead (hphase : s.scrub.phase ≠ .zeroing) : s.takeHead.ClaimsMatch := by
  have hneed : s.needsArray .scrub = false := by simpa [State.needsArray] using hphase
  have hother : ∀ phase n c, c ≠ .scrub →
      (s.setScrub { s.scrub with phase := phase, pieces := n }).needsArray c = s.needsArray c := fun phase n =>
    (s.setScrubPhase_changes phase n).needs_of_ne_scrub rfl
  have hrest : ∀ phase, phase ≠ .zeroing → (s.setScrub { s.scrub with phase := phase, pieces := 0 }).ClaimsMatch := by
    refine fun phase hne => hs.congr rfl fun c => ?_
    by_cases hc : c = .scrub
    · subst hc
      rw [hneed]
      exact decide_eq_false hne
    · exact hother phase 0 c hc
  unfold State.takeHead
  split
  · exact hrest .idle nofun
  · split
    · exact hrest .held nofun
    · exact hs.start rfl hneed rfl (hother .zeroing 0)

theorem State.ClaimsMatch.wakeHeld : s.wakeHeld.ClaimsMatch := by
  unfold State.wakeHeld
  split
  · rename_i hheld
    exact hs.takeHead (by rw [hheld]; nofun)
  · exact hs

end

@[simp] theorem State.reportScrubbed_scrub (s : State) (f : Frame) : (s.reportScrubbed f).scrub = s.scrub := by
  unfold State.reportScrubbed
  split <;> rfl

/-- A piece ends its grant, and the next piece is requested or the scrub is done. -/
theorem State.ClaimsMatch.afterPiece {s : State} (hs : s.ClaimsMatch) (hzero : s.scrub.phase = .zeroing)
    (hh : s.holds .scrub = true) : s.endGrant.afterPiece.ClaimsMatch := by
  have hc := (s.endGrant_changes.trans s.endGrant.afterPiece_changes).needs_of_ne_scrub rfl
  unfold State.afterPiece at hc ⊢
  split
  · rename_i hmore
    rw [if_pos hmore] at hc
    exact hs.again hh rfl (decide_eq_true hzero) hc
  · rename_i hmore
    rw [if_neg hmore] at hc
    exact hs.finish hh rfl rfl hc

/-! ### The Copy Engine -/

@[simp] theorem State.finishJob_arbiter (s : State) (p : Port) : (s.finishJob p).arbiter = s.arbiter :=
  (s.finishJob_changes p).same .arbiter rfl

theorem State.endGrant_arbiter {s t : State} (h : t.arbiter = s.arbiter) : t.endGrant.arbiter = s.endGrant.arbiter := by
  simp only [State.endGrant, State.setArbiter_arbiter, h]

theorem State.needsArray_copy_of_free {s : State} (h : s.copy.engine = .free) : s.needsArray .copy = false := by
  simp [State.needsArray, h]

theorem State.needsArray_copy_of_ne {s : State} (h : s.copy.engine ≠ .free) : s.needsArray .copy = true := by
  simp [State.needsArray, h]

section

variable {s : State} (hs : s.ClaimsMatch)
include hs

/-- The granted claim of the Copy Engine ends, and with it the job. -/
theorem State.ClaimsMatch.endJob {t : State} {l : List Part} (hh : s.holds .copy = true) (h : s.Changes t l)
    (hl : partsApart [.window .hold, .window .reading, .scrubPhase] l = true)
    (ha : t.arbiter = s.endGrant.arbiter) (he : t.copy.engine = .free) : t.ClaimsMatch :=
  hs.finish hh ha (State.needsArray_copy_of_free he) (h.needs_of_ne_copy hl)

/-- The granted claim of the Copy Engine ends, and the job requests its next. -/
theorem State.ClaimsMatch.nextClaim {t : State} {l : List Part} (hh : s.holds .copy = true) (h : s.Changes t l)
    (hl : partsApart [.window .hold, .window .reading, .scrubPhase] l = true)
    (ha : t.arbiter = (s.endGrant.present .copy).arbiter) (he : t.copy.engine ≠ .free) : t.ClaimsMatch :=
  hs.again hh ha (State.needsArray_copy_of_ne he) (h.needs_of_ne_copy hl)

/-- The job goes with its claim not yet granted. -/
theorem State.ClaimsMatch.withdrawJob {t : State} {l : List Part} (hh : s.holds .copy = false) (h : s.Changes t l)
    (hl : partsApart [.window .hold, .window .reading, .scrubPhase] l = true)
    (ha : t.arbiter = (s.withdrawClaim .copy).arbiter) (he : s.copy.engine ≠ .free) (he' : t.copy.engine = .free) :
    t.ClaimsMatch :=
  hs.withdraw hh ha (State.needsArray_copy_of_ne he) (State.needsArray_copy_of_free he') (h.needs_of_ne_copy hl)

/-- The engine goes on with the grant that it holds. -/
theorem State.ClaimsMatch.sameNeed {t : State} {l : List Part} (h : s.Changes t l)
    (hl : partsApart [.window .hold, .window .reading, .scrubPhase] l = true) (ha : t.arbiter = s.arbiter)
    (he : s.copy.engine ≠ .free) (he' : t.copy.engine ≠ .free) : t.ClaimsMatch := by
  refine hs.congr ha fun c => ?_
  by_cases hc : c = .copy
  · rw [hc, State.needsArray_copy_of_ne he, State.needsArray_copy_of_ne he']
  · exact h.needs_of_ne_copy hl c hc

theorem State.ClaimsMatch.closeJob (p : Port) : (s.closeJob p).ClaimsMatch := by
  unfold State.closeJob
  split
  · rename_i hcur
    have hne : s.copy.engine ≠ .free := fun he => by simp [State.jobCurrent, he, EngineState.port?] at hcur
    have howed : (s.setOwed p true).ClaimsMatch := claimsMatch_reads.keep (s.setOwed_changes p true) rfl hs
    have hwithdrawn (hh : s.holds .copy = false) :
        (((s.withdrawClaim .copy).setOwed p true).finishJob p).ClaimsMatch :=
      hs.withdrawJob hh (((s.withdrawClaim_changes _).trans (State.setOwed_changes _ p true)).trans
        (State.finishJob_changes _ p)) rfl (State.finishJob_arbiter _ p) hne (State.finishJob_engine _ p)
    split
    · exact howed
    · dsimp only
      split
      · exact hs.endJob ‹_› ((s.endGrant_changes.trans (State.setOwed_changes _ p true)).trans
          (State.finishJob_changes _ p)) rfl (State.finishJob_arbiter _ p) (State.finishJob_engine _ p)
      · exact hwithdrawn (by simp_all)
    · split
      · exact howed
      · exact hwithdrawn (by simp_all)
  · exact claimsMatch_reads.keep (s.setJobGone_changes p true) rfl hs

end

/-- A validated fetch presents the claim of the first segment or of the write-back. -/
theorem State.validate_arbiter (s : State) (j : JobPlace) (d : Descriptor) :
    (s.validate j d).arbiter = (s.present .copy).arbiter := by
  unfold State.validate
  repeat' split
  all_goals rfl

theorem State.validate_engine_ne_free (s : State) (j : JobPlace) (d : Descriptor) :
    (s.validate j d).copy.engine ≠ .free := by
  unfold State.validate
  repeat' split
  all_goals exact nofun

/-- A segment that ends ends the grant, and the job goes on with its next claim or is abandoned. -/
theorem State.ClaimsMatch.afterSegment {s : State} (hs : s.ClaimsMatch) (hh : s.holds .copy = true) (j : Job) :
    (s.endGrant.afterSegment j).ClaimsMatch := by
  have hend := s.endGrant_changes
  unfold State.afterSegment
  split
  · exact hs.endJob hh (hend.trans (State.finishJob_changes ..)) rfl (State.finishJob_arbiter ..)
      (State.finishJob_engine ..)
  · split
    all_goals exact hs.nextClaim hh (hend.trans (State.request_changes ..)) rfl rfl nofun

/-! ### The arbiter -/

/-- A grant at an arrival leaves each claimant's claims as many as they were. -/
theorem Arbiter.grant_arrival_claims {b : Arbiter} {c : Claimant} (hfree : b.array = .free) (hwait : b.waiting = [])
    (hc : c ∈ b.presented) (c' : Claimant) :
    ({ b with presented := b.presented.erase c }.grant c).claims c' = b.claims c' := by
  have hpos := List.count_pos_iff.mpr hc
  by_cases h : c' = c
  · subst h
    simp [Arbiter.claims, Arbiter.grant, hfree, hwait]
    omega
  · simp [Arbiter.claims, Arbiter.grant, hfree, hwait, List.count_erase_of_ne h, Ne.symm h]

/-- A claim that arrives and waits is the same claim. -/
theorem Arbiter.wait_claims {b : Arbiter} {c : Claimant} (hc : c ∈ b.presented) (c' : Claimant) :
    Arbiter.claims { b with presented := b.presented.erase c, waiting := b.waiting ++ [c] } c' = b.claims c' := by
  have hpos := List.count_pos_iff.mpr hc
  by_cases h : c' = c
  · subst h
    simp [Arbiter.claims]
    omega
  · simp [Arbiter.claims, List.count_erase_of_ne h, Ne.symm h]

theorem Arbiter.grant_waiting_claims {b : Arbiter} {c : Claimant} (hended : b.array = .ended) (hc : c ∈ b.waiting)
    (c' : Claimant) : (b.grant c).claims c' = b.claims c' := by
  have hpos := List.count_pos_iff.mpr hc
  by_cases h : c' = c
  · subst h
    simp [Arbiter.claims, Arbiter.grant, hended]
    omega
  · simp [Arbiter.claims, Arbiter.grant, hended, List.count_erase_of_ne h, Ne.symm h]

/-- The choice is among the claims that wait (R194). -/
theorem Arbiter.choose_mem {b : Arbiter} {c : Claimant} (h : b.choose = some c) : c ∈ b.waiting := by
  unfold Arbiter.choose at h
  split at h
  · rename_i p hp
    cases h
    simpa using List.find?_some hp
  · repeat' split at h
    all_goals cases h
    all_goals simp_all

/-- A claim that may arrive is presented. -/
theorem State.mem_of_canArrive {s : State} {c : Claimant} (h : s.canArrive c = true) : c ∈ s.arbiter.presented := by
  unfold State.canArrive at h
  simpa using (Bool.and_eq_true_iff.mp h).1

/-- What a grant does at the Copy Engine keeps the claims right. -/
theorem State.ClaimsMatch.grantClaim {s : State} {c : Claimant}
    (hs : (s.setArbiter (s.arbiter.grant c)).ClaimsMatch) : (s.grantClaim c).ClaimsMatch := by
  unfold State.grantClaim
  dsimp only
  split
  · split
    · exact hs
    · refine hs.endJob (by simp [State.holds, Arbiter.grant]) (((State.setRing_changes ..).trans
        (State.finishJob_changes ..)).trans (State.endGrant_changes _)) rfl ?_ ?_
      · simp [State.endGrant]
      · simp
  · exact hs

/-! ### Every command -/

theorem exec_keeps_claimsLegal (c : Instr) (s t : State) (h : exec c s = .next t) (hb : s.BusesLegal)
    (hs : s.ClaimsLegal) : t.ClaimsLegal := by
  have hc := exec_changes h
  have keeps {act : State → State} (hr : whileRunning s act = .next t)
      (hact : s.ClaimsMatch → (act s).ClaimsMatch) : t.ClaimsLegal :=
    whileRunning_keeps (P := State.ClaimsLegal) hr hs fun hrst =>
      State.claimsLegal_iff.mpr fun _ => hact (State.claimsLegal_iff.mp hs hrst)
  cases c <;> unfold exec at h
  case registerWrite p a v lanes levels => exact keeps h fun hm => hm.writeEdge a v lanes levels
  case windowWrite p a v lanes levels => exact keeps h fun hm => hm.writeEdge a v lanes levels
  case windowRead p e =>
    refine keeps h fun hm => ?_
    cases e with
    | falls a levels => exact claimsMatch_reads.readEdge_keeps hm fun _ ht htaken => ht.readCycle htaken a
    | rises => exact claimsMatch_reads.releaseLines_keeps hm
  case delayedWindowAccess p rdLow =>
    refine keeps h fun hm => ?_
    split
    · rename_i d hdel hhold
      have hread : (s.window p).reading = none := by
        by_contra hne
        simp [((hb p).1 (Option.isSome_iff_ne_none.mpr hne)).2] at hdel
      split
      · exact hm.takeRead hread hhold _ _
      · exact hm.takeWrite hread hhold _ _ _ _
    · exact hm
  case readCarriedOut p rdLow =>
    refine keeps h fun hm => ?_
    split
    · exact hm
    · rename_i place hread
      split
      · exact hm.carriedOut ‹_› _ rfl ((hb p).1 (by simp [hread])).1
      · exact hm
  case writeCarriedOut p =>
    refine keeps h fun hm => ?_
    split
    · exact hm
    · rename_i w hhold
      have hread : (s.window p).reading = none := by
        by_contra hne
        simp [((hb p).1 (Option.isSome_iff_ne_none.mpr hne)).1] at hhold
      split
      · have hmem := claimsMatch_reads.keep (s.setMem_changes (Memory.writeLanes s.mem w)) rfl hm
        exact hmem.carriedOut ‹_› _ hread rfl
      · exact hm
  case arbiterGrant happening =>
    refine keeps h fun hm => ?_
    cases happening with
    | arrival c =>
      dsimp only
      split
      · have hmem := State.mem_of_canArrive ‹_›
        split
        · rename_i hfree
          exact State.ClaimsMatch.grantClaim fun c' =>
            (Arbiter.grant_arrival_claims hfree.1 hfree.2 hmem c').trans (hm c')
        · exact fun c' => (Arbiter.wait_claims hmem c').trans (hm c')
      · exact hm
    | endOfGrant =>
      dsimp only
      split
      · rename_i hended
        split
        · exact State.ClaimsMatch.grantClaim fun c' =>
            (Arbiter.grant_waiting_claims hended (Arbiter.choose_mem ‹_›) c').trans (hm c')
        · refine fun c' => Eq.trans ?_ (hm c')
          simp [Arbiter.claims, hended]
      · exact hm
  case scrubStart =>
    refine keeps h fun hm => ?_
    split
    · rename_i hidle
      exact hm.takeHead (by rw [hidle.1]; nofun)
    · exact hm
  case pieceEnd =>
    refine keeps h fun hm => ?_
    split
    · exact hm
    · split
      · rename_i hheld
        obtain ⟨hzero, hheld⟩ := hheld
        generalize Memory.writeBytes s.mem _ pieceZeros = m
        exact State.ClaimsMatch.afterPiece (claimsMatch_reads.keep (s.setMem_changes m) rfl hm) hzero hheld
      · exact hm
  case scrubDone =>
    refine keeps h fun hm => ?_
    split
    · exact hm
    · split
      · rename_i f rest hq hrep
        rw [← State.reportScrubbed_scrub s f] at hrep ⊢
        refine State.ClaimsMatch.takeHead (claimsMatch_reads.keep ((s.reportScrubbed_changes f).trans
          (State.setScrubQueue_changes _ rest)) rfl hm) ?_
        rw [State.setScrub_scrub, hrep]
        nofun
      · exact hm
  case selection =>
    refine keeps h fun hm => ?_
    repeat' split
    · exact hm
    · exact hm
    · have hfree : s.copy.engine = .free := ‹_›
      exact hm.start rfl (State.needsArray_copy_of_free hfree) (State.needsArray_copy_of_ne nofun)
        (((s.setPointer_changes _).trans (State.setEngine_changes ..)).needs_of_ne_copy rfl)
    · exact hm
  case fetchEnd =>
    refine keeps h fun hm => ?_
    split
    · split
      · rename_i j he hh
        dsimp only
        split
        · exact hm.endJob hh ((s.finishJob_changes _).trans (State.endGrant_changes _)) rfl (by simp [State.endGrant])
            (by simp)
        · split
          · exact hm.nextClaim hh (((s.setRing_changes ..).trans (State.endGrant_changes _)).trans
              (State.validate_changes ..)) rfl (State.validate_arbiter ..) (State.validate_engine_ne_free _ _ _)
          · exact hm.endJob hh (((s.setRing_changes ..).trans (State.endGrant_changes _)).trans
              (State.finishJob_changes ..)) rfl (State.finishJob_arbiter ..) (State.finishJob_engine ..)
      · exact hm
    · exact hm
  case segmentBegin =>
    refine keeps h fun hm => ?_
    split
    · rename_i j he
      split
      · rename_i hh
        split
        · exact hm.endJob hh ((s.finishJob_changes _).trans (State.endGrant_changes _)) rfl (by simp [State.endGrant])
            (by simp)
        · split
          · exact hm.sameNeed ((s.setMarks_changes j true).trans (State.setEngine_changes ..)) rfl rfl
              (by rw [he]; nofun) nofun
          · exact hm.nextClaim hh (s.endGrant_changes.trans (State.request_changes ..)) rfl rfl nofun
      · exact hm
    · exact hm
  case segmentEnd =>
    refine keeps h fun hm => ?_
    split
    · rename_i j he
      split
      · rename_i hh
        refine State.ClaimsMatch.wakeHeld (State.ClaimsMatch.afterSegment ?_ ?_ _)
        · exact claimsMatch_reads.keep ((s.setMem_changes _).trans (State.setMarks_changes _ j false)) rfl hm
        · exact hh
      · exact hm
    · exact hm
  case writeBackEnd =>
    refine keeps h fun hm => ?_
    split
    · rename_i w he
      split
      · rename_i hh
        dsimp only
        exact hm.endJob hh (((((s.setMem_changes _).trans (State.setRing_changes ..)).trans
          (State.handOver_changes ..)).trans (State.finishJob_changes ..)).trans (State.endGrant_changes _)) rfl
          (State.endGrant_arbiter ((State.finishJob_arbiter _ _).trans
            ((State.handOver_changes ..).same .arbiter rfl))) (by simp)
      · exact hm
    · exact hm
  case copyEngineClosing p =>
    refine keeps h fun hm => ?_
    split
    · refine State.ClaimsMatch.closeJob (claimsMatch_reads.keep ((s.setSession_changes p _ [.session .annCopy]
        fun k hk => ?_).trans (State.setRing_changes ..)) rfl hm) p
      cases k <;> first | exact absurd (by decide) hk | exact SessionField.same_of_refl rfl
    · exact hm
  case rstAsserted =>
    cases h
    split
    · exact hs
    · exact fun hrst => absurd hrst nofun
  case rstRisingEdge qmode prst =>
    cases h
    split
    · refine State.claimsLegal_iff.mpr fun _ c => ?_
      cases c <;> simp [Arbiter.claims, State.needsArray, State.atRisingEdge, State.window, WindowUnit.reset]
    · exact hs
  all_goals exact claimsLegal_reads.keep hc rfl hs

/-! ## O57 -/

/-- Settles O57: the buses by what each access does to its port's bus, the claims by what each command does to its
claimant's need and to the arbiter. -/
theorem stepKeepsBusesAndClaims : Obligations.StepKeepsBusesAndClaims := fun _ _ hb hm h =>
  step_keeps (P := fun s => s.BusesLegal ∧ s.ClaimsLegal) (busesLegal_reads.and claimsLegal_reads) rfl
    (fun s hs => (busesLegal_reads.and claimsLegal_reads).keep s.refclk_changes rfl hs)
    (fun c s t h hs => ⟨exec_keeps_busesLegal c s t h hs.1, exec_keeps_claimsLegal c s t h hs.1 hs.2⟩) h ⟨hb, hm⟩

end Sys2Proof.Machine
end

section
/-! SUPPORT. The moves of the directory: each command of the frame tables is a row of a few moves, each of one frame record,
so that a condition that every move keeps is kept by the command. -/

namespace Sys2Proof.Machine

/-! ## The moves -/

/-- One change of the directory's tables. `closed p` lets the frames of a port be disposed of. -/
inductive DirectoryMove (closed : Port → Prop) : State → State → Prop
  /-- A command block or a hand-over alone changes. -/
  | other {s t : State} (h : s.Changes t []) : DirectoryMove closed s t
  /-- A FREE frame is granted (R13, R15). -/
  | grant {s : State} {f : Frame} {p : Port} (hfree : (s.frame f).state = .free) (hup : s.isUp p = true)
      (hquota : s.quotaFull p = false) : DirectoryMove closed s (s.setFrame f ((s.frame f).granted p))
  /-- A SCRUBBING frame is reserved (R13). -/
  | reserve {s : State} {f : Frame} {p : Port} (hscrub : (s.frame f).state = .scrubbing)
      (hnone : (s.frame f).reservation = none) (hup : s.isUp p = true) (hquota : s.quotaFull p = false) :
      DirectoryMove closed s (s.setFrame f { s.frame f with reservation := some p })
  /-- A frame is released (R16). -/
  | release {s : State} {f : Frame} {p : Port} (howner : (s.frame f).owner = some p)
      (hoffered : (s.frame f).state ≠ .offered) (hring : s.isRingFrame p f = false) :
      DirectoryMove closed s (s.sendToScrub f)
  /-- The owner names another port as heir, or none (R18). -/
  | heir {s : State} {f : Frame} {p : Port} {h : Option Port} (howner : (s.frame f).owner = some p)
      (hh : ∀ q ∈ h, q ≠ p ∧ s.dirUp q = true) : DirectoryMove closed s (s.setFrame f { s.frame f with fallback := h })
  /-- The owner lends the frame to another port (R20). -/
  | lend {s : State} {f : Frame} {p q : Port} (howner : (s.frame f).owner = some p) (hne : q ≠ p)
      (hup : s.dirUp q = true) :
      DirectoryMove closed s (s.setFrame f { s.frame f with readers := put (s.frame f).readers q true })
  /-- A reader goes (R21, R22). -/
  | unlend {s : State} {f : Frame} {q : Port} :
      DirectoryMove closed s (s.setFrame f { s.frame f with readers := put (s.frame f).readers q false })
  /-- The owner offers the frame (R54). -/
  | offer {s : State} {o : Offer} (howner : (s.frame o.frame).owner = some o.offerer)
      (hoffered : (s.frame o.frame).state ≠ .offered) (hne : o.recipient ≠ o.offerer) (hup : s.isUp o.offerer = true)
      (hto : s.dirUp o.recipient = true) (hring : s.isRingFrame o.offerer o.frame = false)
      (hroom : (s.inbox o.recipient).length < 8) (htime : o.remaining = o.timeout) :
      DirectoryMove closed s (s.makeOffer o)
  /-- An offer ends and its frame is OWNED again (R52, R56, R60, R67, R68). -/
  | endOffer {s : State} {f : Frame} : DirectoryMove closed s (s.endOffer f)
  /-- An offer is lowered by a tick (R51). -/
  | lower {s : State} {f : Frame} {o : Offer} (ho : (s.frame f).offer = some o) (hmore : 1 < o.remaining.toNat) :
      DirectoryMove closed s
        (s.setFrame f { s.frame f with offer := some { o with remaining := o.remaining - 1 } })
  /-- An offer is accepted (R58). -/
  | accept {s : State} {f : Frame} {p : Port} {o : Offer} (hi : s.inboxOffer p f = some o) (hup : s.isUp p = true)
      (hquota : s.quotaFull p = false) :
      DirectoryMove closed s ((s.setFrame f ((s.frame f).passed p)).leaveInbox o)
  /-- A closed port's frame passes to its heir (R28). -/
  | inherit {s : State} {f : Frame} {p q : Port} (hclosed : closed p) (howner : (s.frame f).owner = some p)
      (hheir : (s.frame f).fallback = some q) (hup : s.dirUp q = true) (hquota : s.quotaFull q = false) :
      DirectoryMove closed s (s.setFrame f ((s.frame f).passed q))
  /-- A closed port's frame is given up (R28). -/
  | giveUp {s : State} {f : Frame} {p : Port} (hclosed : closed p) (howner : (s.frame f).owner = some p) :
      DirectoryMove closed s (s.sendToScrub f)

/-- A row of moves. -/
abbrev DirectoryMoves (closed : Port → Prop) : State → State → Prop := Relation.ReflTransGen (DirectoryMove closed)

/-- What every move keeps a row of moves keeps. -/
theorem DirectoryMoves.keep {closed : Port → Prop} {P : State → Prop}
    (hmove : ∀ s t, DirectoryMove closed s t → P s → P t) {s t : State} (h : DirectoryMoves closed s t) (hs : P s) : P t := by
  induction h with
  | refl => exact hs
  | tail _ hlast ih => exact hmove _ _ hlast ih

theorem DirectoryMove.then_other {closed : Port → Prop} {s t u : State} (h : DirectoryMove closed s t)
    (hu : t.Changes u []) : DirectoryMoves closed s u :=
  (Relation.ReflTransGen.single h).tail (.other hu)

/-- The parts of the state that a move leaves. -/
theorem DirectoryMove.changes {closed : Port → Prop} {s t : State} (h : DirectoryMove closed s t) :
    s.Changes t (holdingParts ++ [.frame .reservation, .inboxes, .scrubQueue]) := by
  cases h
  case other h => exact h.mono (List.nil_subset _)
  case release => exact (s.sendToScrub_changes _).mono (by decide)
  case giveUp => exact (s.sendToScrub_changes _).mono (by decide)
  case offer => exact (s.makeOffer_changes _).mono (by decide)
  case endOffer => exact (s.endOffer_changes _).mono (by decide)
  case accept =>
    refine ((s.setFrame_changes _ _ holdingParts fun k hk => ?_).trans (State.setInbox_changes ..)).mono (by decide)
    cases k <;> first | exact absurd (by decide) hk | exact FrameField.same_of_refl rfl
  all_goals
    refine s.setFrame_changes _ _ _ fun k hk => ?_
    cases k <;> first | exact absurd (by decide) hk | exact FrameField.same_of_refl rfl

/-! ## The commands as rows of moves -/

/-- The ports whose frames are disposed of: those of the command's closing. -/
def Instr.closedPort : Instr → Port → Prop
  | .disposal p => (· = p)
  | _ => fun _ => False

/-- A command of the directory's block is the moves of its body and an answer. -/
theorem State.takeCommand_moves {closed : Port → Prop} {s : State} {p : Port} {owns : Byte → Bool}
    {body : State → Port → Args → State × Reply}
    (h : s.isUp p = true → ∀ a, DirectoryMoves closed s (body s p a).1) :
    DirectoryMoves closed s (s.takeCommand p owns body) := by
  rcases s.takeCommand_cases p owns body with ⟨he, -⟩ | ⟨k, -, -, hup, he⟩ | ⟨k, -, -, -, he⟩ <;> rw [he]
  · exact (h hup k.args).tail (.other (State.setCommand_changes ..))
  · exact .single (.other (s.discard_changes p))

section

variable {closed : Port → Prop} (s : State) (p : Port) (hup : s.isUp p = true) (a : Args)
include hup

theorem claimBody_moves : DirectoryMoves closed s (claimBody s p a).1 := by
  unfold claimBody claimFrame
  dsimp only
  split
  · split
    · split
      · exact .refl
      · exact .single (.grant ‹_› hup (by simp_all))
    · split <;> exact .refl
    · split <;> exact .refl
    · split
      · repeat' split
        all_goals exact .refl
      · repeat' split
        · exact .refl
        · exact .single (.reserve ‹_› ‹_› hup (by simp_all))
        · exact .refl
  · exact .refl

theorem claimAnyBody_moves : DirectoryMoves closed s (claimAnyBody s p a).1 := by
  unfold claimAnyBody
  split
  · exact .refl
  · split
    · exact .refl
    · rename_i f hf
      have hfree : (s.frame f).state = .free := by simpa using List.find?_some hf
      exact .single (.grant hfree hup (by simp_all))

omit hup in
theorem releaseBody_moves : DirectoryMoves closed s (releaseBody s p a).1 := by
  unfold releaseBody
  dsimp only
  repeat' split
  all_goals first
    | exact .refl
    | dsimp only
      refine DirectoryMove.then_other ?_ (State.handOver_changes ..)
      exact .release (p := p) (by simp_all) ‹_› (by simp_all)

omit hup in
theorem labelBody_moves : DirectoryMoves closed s (labelBody s p a).1 :=
  .single (.other (labelBody_changes s p a))

omit hup in
theorem fallbackBody_moves : DirectoryMoves closed s (fallbackBody s p a).1 := by
  unfold fallbackBody
  dsimp only
  split
  · split
    · exact .refl
    · split
      · exact .single (.heir (p := p) (by simp_all) nofun)
      · repeat' split
        · exact .refl
        · exact .refl
        · exact .single (.heir (p := p) (by simp_all) (by simp_all))
  · exact .refl

omit hup in
theorem lendBody_moves : DirectoryMoves closed s (lendBody s p a).1 := by
  unfold lendBody
  dsimp only
  repeat' split
  all_goals first
    | exact .refl
    | dsimp only
      refine DirectoryMove.then_other ?_ (State.handOver_changes ..)
      exact .lend (p := p) (by simp_all) ‹_› (by simp_all)

omit hup in
theorem revokeBody_moves : DirectoryMoves closed s (revokeBody s p a).1 := by
  unfold revokeBody
  dsimp only
  repeat' split
  all_goals first
    | exact .refl
    | dsimp only
      exact DirectoryMove.then_other .unlend (State.handOver_changes ..)

omit hup in
theorem dropBody_moves : DirectoryMoves closed s (dropBody s p a).1 := by
  unfold dropBody
  dsimp only
  repeat' split
  all_goals first | exact .refl | exact .single .unlend

theorem offerBody_moves : DirectoryMoves closed s (offerBody s p a).1 := by
  unfold offerBody
  dsimp only
  repeat' split
  all_goals first
    | exact .refl
    | dsimp only
      refine DirectoryMove.then_other ?_ (State.handOver_changes ..)
      exact .offer (by simp_all) ‹_› ‹_› hup (by simp_all) (by simp_all) (Nat.lt_of_not_le ‹_›) rfl

omit hup in
theorem withdrawBody_moves : DirectoryMoves closed s (withdrawBody s p a).1 := by
  unfold withdrawBody
  repeat' split
  all_goals first
    | exact .refl
    | dsimp only
      exact DirectoryMove.then_other .endOffer (State.handOver_changes ..)

theorem acceptBody_moves : DirectoryMoves closed s (acceptBody s p a).1 := by
  unfold acceptBody
  dsimp only
  repeat' split
  all_goals first
    | exact .refl
    | dsimp only
      refine DirectoryMove.then_other ?_ (State.handOver_changes ..)
      exact .accept ‹_› hup (by simp_all)

omit hup in
theorem declineBody_moves : DirectoryMoves closed s (declineBody s p a).1 := by
  unfold declineBody
  repeat' split
  all_goals first
    | exact .refl
    | dsimp only
      exact DirectoryMove.then_other .endOffer (State.handOver_changes ..)

end

/-- A fold whose steps are rows of moves is a row of moves. -/
theorem foldl_moves {closed : Port → Prop} {α β : Type} {step : State × β → α → State × β}
    (h : ∀ acc x, DirectoryMoves closed acc.1 (step acc x).1) (l : List α) (acc : State × β) :
    DirectoryMoves closed acc.1 (l.foldl step acc).1 := by
  induction l generalizing acc with
  | nil => exact .refl
  | cons x l ih => exact (h acc x).trans (ih (step acc x))

theorem tickFrame_moves {closed : Port → Prop} (acc : State × List (Port × EventRecord)) (f : Frame) :
    DirectoryMoves closed acc.1 (tickFrame acc f).1 := by
  unfold tickFrame
  repeat' split
  · exact .refl
  · exact .refl
  · exact .single .endOffer
  · exact .single (.lower ‹_› (by omega))

theorem State.takeTick_moves {closed : Port → Prop} (s : State) : DirectoryMoves closed s s.takeTick :=
  (foldl_moves tickFrame_moves allFrames (s, [])).tail (.other (State.handOver_changes ..))

theorem State.settleOffers_moves {closed : Port → Prop} (s : State) (p : Port) :
    DirectoryMoves closed s (s.settleOffers p).1 := by
  refine (foldl_moves (fun acc f => ?_) (s.inbox p) (s, [])).trans (foldl_moves (fun acc f => ?_) allFrames _)
  · unfold returnOffer
    split
    · exact .refl
    · exact .single .endOffer
  · unfold cancelOffer
    repeat' split
    · exact .refl
    · exact .single .endOffer
    · exact .refl

theorem State.heir_eq_some_iff {s : State} {r : FrameRecord} {q : Port} :
    s.heir r = some q ↔ r.fallback = some q ∧ s.dirUp q = true ∧ s.quotaFull q = false := by
  simp [State.heir]

theorem disposeFrame_moves (p : Port) (acc : State × List (Port × EventRecord)) (f : Frame) :
    DirectoryMoves (· = p) acc.1 (disposeFrame p acc f).1 := by
  unfold disposeFrame
  dsimp only
  split
  · exact .refl
  · rename_i howner
    rw [not_not] at howner
    split
    · obtain ⟨hheir, hup, hquota⟩ := State.heir_eq_some_iff.mp ‹_›
      exact .single (.inherit rfl howner hheir hup hquota)
    · exact .single (.giveUp rfl howner)

/-- The frames of a closed port disposed of, with their events (R28). -/
def State.disposeFrames (s : State) (p : Port) : State × List (Port × EventRecord) :=
  allFrames.foldl (disposeFrame p) (s, [])

theorem State.disposeAll_eq (s : State) (p : Port) :
    s.disposeAll p = (((s.disposeFrames p).1.handOver .directory (s.disposeFrames p).2).setSession p
      { ((s.disposeFrames p).1.handOver .directory (s.disposeFrames p).2).session p with disposalDone := true }) := rfl

theorem State.disposeFrames_moves (s : State) (p : Port) :
    DirectoryMoves (· = p) s ((s.disposeFrames p).1.handOver .directory (s.disposeFrames p).2) :=
  (foldl_moves (disposeFrame_moves p) allFrames (s, [])).tail (.other (State.handOver_changes ..))

/-- The commands of the frame tables that are rows of moves from beginning to end. -/
def Instr.IsDirectory : Instr → Prop
  | .claim _ | .claimAny _ | .release _ | .label _ | .fallback _ | .lend _ | .revoke _ | .drop _ | .offer _ | .withdraw _
  | .accept _ | .decline _ | .expiry _ => True
  | _ => False

theorem exec_moves {c : Instr} {s t : State} (h : exec c s = .next t) (hc : Instr.IsDirectory c) :
    DirectoryMoves (fun _ => False) s t := by
  have run {act : State → State} (hr : whileRunning s act = .next t)
      (hact : DirectoryMoves (fun _ => False) s (act s)) : DirectoryMoves (fun _ => False) s t :=
    whileRunning_keeps (P := DirectoryMoves _ s) hr .refl fun _ => hact
  cases c <;> first | exact hc.elim | unfold exec at h
  case claim p => exact run h (s.takeCommand_moves fun hup a => claimBody_moves s p hup a)
  case claimAny p => exact run h (s.takeCommand_moves fun hup a => claimAnyBody_moves s p hup a)
  case release p => exact run h (s.takeCommand_moves fun _ a => releaseBody_moves s p a)
  case label p => exact run h (s.takeCommand_moves fun _ a => labelBody_moves s p a)
  case fallback p => exact run h (s.takeCommand_moves fun _ a => fallbackBody_moves s p a)
  case lend p => exact run h (s.takeCommand_moves fun _ a => lendBody_moves s p a)
  case revoke p => exact run h (s.takeCommand_moves fun _ a => revokeBody_moves s p a)
  case drop p => exact run h (s.takeCommand_moves fun _ a => dropBody_moves s p a)
  case offer p => exact run h (s.takeCommand_moves fun hup a => offerBody_moves s p hup a)
  case withdraw p => exact run h (s.takeCommand_moves fun _ a => withdrawBody_moves s p a)
  case accept p => exact run h (s.takeCommand_moves fun hup a => acceptBody_moves s p hup a)
  case decline p => exact run h (s.takeCommand_moves fun _ a => declineBody_moves s p a)
  case expiry f =>
    refine run h ?_
    repeat' split
    · exact .refl
    · exact DirectoryMove.then_other .endOffer (State.handOver_changes ..)
    · exact .refl

end Sys2Proof.Machine
end

section
/-! SUPPORT. The frame records and the quota count: what each move of the directory does to one frame record keeps them as
R1, R2 and R11 say. -/

namespace Sys2Proof.Machine

/-! ## One frame record (R1, R2) -/

section

variable {f : Frame} {r : FrameRecord} (h : r.Legal f)
include h

theorem FrameRecord.Legal.owner_of_free (hfree : r.state = .free) : r.owner = none := by
  simpa [hfree] using h.1

theorem FrameRecord.Legal.owner_of_scrubbing (hscrub : r.state = .scrubbing) : r.owner = none := by
  simpa [hscrub] using h.1

theorem FrameRecord.Legal.offer_of_ne (hne : r.state ≠ .offered) : r.offer = none := by
  simpa [hne] using h.2.1

theorem FrameRecord.Legal.reservation_of_ne (hne : r.state ≠ .scrubbing) : r.reservation = none := by
  have := h.2.2.2.2.2
  simpa [hne] using this

/-- A frame that somebody owns is not SCRUBBING and has no reservation. -/
theorem FrameRecord.Legal.of_owner {p : Port} (howner : r.owner = some p) :
    (r.state = .owned ∨ r.state = .offered) ∧ r.state ≠ .scrubbing ∧ r.state ≠ .free ∧ r.reservation = none := by
  have hstate := h.1.mp (by rw [howner]; rfl)
  have hne : r.state ≠ .scrubbing := by rcases hstate with he | he <;> rw [he] <;> nofun
  exact ⟨hstate, hne, by rcases hstate with he | he <;> rw [he] <;> nofun, h.reservation_of_ne hne⟩

/-- A frame that nobody owns has no reader, no heir and no offer. -/
theorem FrameRecord.Legal.of_no_owner (howner : r.owner = none) :
    (∀ q, sel r.readers q = false) ∧ r.fallback = none ∧ r.offer = none ∧ r.state ≠ .owned ∧ r.state ≠ .offered := by
  obtain ⟨hstate, hoffer, -, hreaders, hfallback, -⟩ := h
  have hnot : ¬(r.state = .owned ∨ r.state = .offered) := by rw [← hstate, howner]; nofun
  rw [not_or] at hnot
  refine ⟨fun q => ?_, ?_, ?_, hnot.1, hnot.2⟩
  · by_contra hne
    exact absurd (hreaders q (by simpa using hne)).1 (by rw [howner]; nofun)
  · by_contra hne
    obtain ⟨q, hq⟩ := Option.ne_none_iff_exists'.mp hne
    exact absurd (hfallback q hq).1 (by rw [howner]; nofun)
  · by_contra hne
    exact hnot.2 (hoffer.mp (Option.isSome_iff_ne_none.mpr hne))

theorem FrameRecord.Legal.granted (howner : r.owner = none) (hres : r.reservation = none) (p : Port) :
    (r.granted p).Legal f := by
  obtain ⟨hreaders, hfallback, hoffer, -, -⟩ := h.of_no_owner howner
  simp [FrameRecord.granted, FrameRecord.Legal, hreaders, hfallback, hoffer, hres]

omit h in
theorem FrameRecord.Legal.passed (hres : r.reservation = none) (p : Port) : (r.passed p).Legal f := by
  simp [FrameRecord.passed, FrameRecord.granted, FrameRecord.Legal, noReaders, hres]

theorem FrameRecord.Legal.reserved (hscrub : r.state = .scrubbing) (p : Option Port) :
    FrameRecord.Legal f { r with reservation := p } := by
  obtain ⟨hstate, hoffer, ho, hreaders, hfallback, -⟩ := h
  exact ⟨hstate, hoffer, ho, hreaders, hfallback, fun _ => hscrub⟩

theorem FrameRecord.Legal.withFallback {p : Port} {q : Option Port} (howner : r.owner = some p) (hq : ∀ x ∈ q, x ≠ p) :
    FrameRecord.Legal f { r with fallback := q } := by
  obtain ⟨hstate, hoffer, ho, hreaders, -, hres⟩ := h
  refine ⟨hstate, hoffer, ho, hreaders, fun x hx => ⟨by simp [howner], ?_⟩, hres⟩
  rw [howner]
  simpa using (hq x hx).symm

theorem FrameRecord.Legal.withReader {p q : Port} (howner : r.owner = some p) (hq : q ≠ p) :
    FrameRecord.Legal f { r with readers := put r.readers q true } := by
  obtain ⟨hstate, hoffer, ho, hreaders, hfallback, hres⟩ := h
  refine ⟨hstate, hoffer, ho, fun x hx => ?_, hfallback, hres⟩
  by_cases he : x = q
  · subst he
    rw [howner]
    simpa using hq.symm
  · exact hreaders x (by simpa [he] using hx)

theorem FrameRecord.Legal.withoutReader (q : Port) :
    FrameRecord.Legal f { r with readers := put r.readers q false } := by
  obtain ⟨hstate, hoffer, ho, hreaders, hfallback, hres⟩ := h
  refine ⟨hstate, hoffer, ho, fun x hx => hreaders x ?_, hfallback, hres⟩
  by_cases he : x = q <;> simp_all

/-- The end of an offer: the owner is the offerer and stays. -/
theorem FrameRecord.Legal.ended {o : Offer} (ho : r.offer = some o) :
    FrameRecord.Legal f { r with state := .owned, offer := none } := by
  obtain ⟨hstate, hoffer, ho', hreaders, hfallback, hres⟩ := h
  have howner := (ho' o ho).2.1
  have hres' : r.reservation = none := by
    have hoff := hoffer.mp (by rw [ho]; rfl)
    rw [hoff] at hres
    by_contra hne
    exact absurd (hres (Option.isSome_iff_ne_none.mpr hne)) nofun
  exact ⟨by simp [howner], by simp, nofun, hreaders, hfallback, by simp [hres']⟩

theorem FrameRecord.Legal.lowered {o : Offer} (ho : r.offer = some o) (hmore : 1 < o.remaining.toNat) :
    FrameRecord.Legal f { r with offer := some { o with remaining := o.remaining - 1 } } := by
  obtain ⟨hstate, hoffer, ho', hreaders, hfallback, hres⟩ := h
  obtain ⟨hframe, howner, hne, hle, -⟩ := ho' o ho
  have hsub : (o.remaining - 1).toNat = o.remaining.toNat - 1 := by bv_omega
  refine ⟨hstate, by simpa [ho] using hoffer, fun o' ho' => ?_, hreaders, hfallback, hres⟩
  cases ho'
  refine ⟨hframe, howner, hne, ?_, fun _ hzero => ?_⟩
  · simp only [hsub]
    omega
  · have := congrArg BitVec.toNat hzero
    simp only [hsub] at this
    have hzero' : (0 : Word).toNat = 0 := rfl
    omega

theorem FrameRecord.Legal.offered {o : Offer} (howner : r.owner = some o.offerer) (hframe : o.frame = f)
    (hne : o.recipient ≠ o.offerer) (htime : o.remaining = o.timeout) :
    FrameRecord.Legal f { r with state := .offered, offer := some o } := by
  obtain ⟨-, -, -, hres⟩ := h.of_owner howner
  obtain ⟨-, -, -, hreaders, hfallback, -⟩ := h
  refine ⟨by simp [howner], by simp, fun o' ho' => ?_, hreaders, hfallback, by simp [hres]⟩
  cases ho'
  exact ⟨hframe, howner, hne, by rw [htime], fun hz => by rwa [htime]⟩

theorem FrameRecord.Legal.withoutPort (p : Port) : (r.withoutPort p).Legal f := by
  obtain ⟨hstate, hoffer, ho, hreaders, hfallback, hres⟩ := h
  refine ⟨hstate, hoffer, ho, fun q hq => hreaders q ?_, fun q hq => hfallback q ?_, fun hsome => hres ?_⟩
  · simp only [FrameRecord.withoutPort] at hq
    by_cases he : q = p <;> simp_all
  · exact (Option.mem_filter_iff.mp hq).1
  · simp only [FrameRecord.withoutPort, Option.isSome_filter] at hsome
    exact Option.isSome_of_any hsome

end

theorem FrameRecord.givenUp_legal (f : Frame) (r : FrameRecord) : r.givenUp.Legal f := by
  simp [FrameRecord.givenUp, FrameRecord.Legal, noReaders]

theorem FrameRecord.scrubbedFree_legal (f : Frame) (r : FrameRecord) : r.scrubbedFree.Legal f := by
  simp [FrameRecord.scrubbedFree, FrameRecord.Legal, noReaders]

theorem FrameRecord.scrubbedFor_legal (f : Frame) (r : FrameRecord) (p : Port) : (r.scrubbedFor p).Legal f :=
  (r.scrubbedFree_legal f).granted rfl rfl p

/-! ## Every frame record -/

/-- The fields of a frame record that its legality reads. -/
def frameParts : List Part :=
  [.frame .state, .frame .owner, .frame .readers, .frame .fallback, .frame .offer, .frame .reservation]

theorem framesLegal_reads : ReadsOnly State.FramesLegal frameParts := fun s t h hs f => by
  have hstate : (t.frame f).state = (s.frame f).state := h (.frame .state) (by decide) f
  have howner : (t.frame f).owner = (s.frame f).owner := h (.frame .owner) (by decide) f
  have hreaders : (t.frame f).readers = (s.frame f).readers := h (.frame .readers) (by decide) f
  have hfallback : (t.frame f).fallback = (s.frame f).fallback := h (.frame .fallback) (by decide) f
  have hoffer : (t.frame f).offer = (s.frame f).offer := h (.frame .offer) (by decide) f
  have hres : (t.frame f).reservation = (s.frame f).reservation := h (.frame .reservation) (by decide) f
  simp only [FrameRecord.Legal, Offer.Legal, hstate, howner, hreaders, hfallback, hoffer, hres]
  exact hs f

theorem State.setFrame_framesLegal {s : State} (hs : s.FramesLegal) {f : Frame} {r : FrameRecord} (h : r.Legal f) :
    (s.setFrame f r).FramesLegal := fun g => by
  rw [State.setFrame_frame]
  split
  · subst g; exact h
  · exact hs g

theorem DirectoryMove.keeps_framesLegal {closed : Port → Prop} (s t : State) (h : DirectoryMove closed s t)
    (hs : s.FramesLegal) : t.FramesLegal := by
  cases h
  case other h => exact framesLegal_reads.keep h rfl hs
  case grant f p hfree _ _ =>
    exact State.setFrame_framesLegal hs ((hs f).granted ((hs f).owner_of_free hfree)
      ((hs f).reservation_of_ne (by rw [hfree]; nofun)) p)
  case reserve f p hscrub _ _ _ => exact State.setFrame_framesLegal hs ((hs f).reserved hscrub _)
  case release f p _ _ _ =>
    exact framesLegal_reads.keep (State.setScrubQueue_changes _ _) rfl
      (State.setFrame_framesLegal hs (FrameRecord.givenUp_legal f _))
  case giveUp f p _ _ =>
    exact framesLegal_reads.keep (State.setScrubQueue_changes _ _) rfl
      (State.setFrame_framesLegal hs (FrameRecord.givenUp_legal f _))
  case heir f p q howner hh => exact State.setFrame_framesLegal hs ((hs f).withFallback howner fun x hx => (hh x hx).1)
  case lend f p q howner hne _ => exact State.setFrame_framesLegal hs ((hs f).withReader howner hne)
  case unlend f q => exact State.setFrame_framesLegal hs ((hs f).withoutReader q)
  case offer o howner _ hne _ _ _ _ htime =>
    exact framesLegal_reads.keep (State.setInbox_changes _ _ _) rfl
      (State.setFrame_framesLegal hs ((hs o.frame).offered howner rfl hne htime))
  case endOffer f =>
    cases ho : (s.frame f).offer with
    | none => rwa [State.endOffer_none ho]
    | some o =>
      rw [State.endOffer_some ho]
      exact framesLegal_reads.keep (State.setInbox_changes _ _ _) rfl (State.setFrame_framesLegal hs ((hs f).ended ho))
  case lower f o ho hmore => exact State.setFrame_framesLegal hs ((hs f).lowered ho hmore)
  case accept f p o hi _ _ =>
    obtain ⟨-, ho, -⟩ := State.inboxOffer_eq_some_iff.mp hi
    obtain ⟨-, -, -, hres⟩ := (hs f).of_owner ((hs f).2.2.1 o ho).2.1
    exact framesLegal_reads.keep (State.setInbox_changes _ _ _) rfl
      (State.setFrame_framesLegal hs (.passed hres p))
  case inherit f p q _ howner _ _ _ =>
    obtain ⟨-, -, -, hres⟩ := (hs f).of_owner howner
    exact State.setFrame_framesLegal hs (.passed hres q)

/-! ## The quota count (R11) -/

/-- What one frame adds to a port's quota count. -/
def FrameRecord.load (r : FrameRecord) (p : Port) : Nat := (r.owner == some p).toNat + (r.reservation == some p).toNat

theorem countP_eq_sum_sel {α : Type} {n : Nat} (v : Vector α n) (p : α → Bool) :
    v.toList.countP p = ∑ i : Fin n, (p (sel v i)).toNat := by
  have hlist : v.toList = (List.finRange n).map (sel v) := by
    refine List.ext_getElem (by simp) fun i _ _ => ?_
    simp [sel]
  have hcount : ∀ l : List α, l.countP p = (l.map fun x => (p x).toNat).sum := fun l => by
    induction l with
    | nil => rfl
    | cons x l ih => cases hx : p x <;> simp [hx, ih, Nat.add_comm]
  rw [hcount, hlist, List.map_map, Fin.sum_univ_def]
  rfl

/-- A port's quota count is the sum of what each frame adds to it. -/
theorem State.quotaCount_eq_sum (s : State) (p : Port) : s.quotaCount p = ∑ f : Frame, (s.frame f).load p := by
  rw [State.quotaCount, countP_eq_sum_sel, countP_eq_sum_sel, ← Finset.sum_add_distrib]
  rfl

/-- One frame's record changes a port's count by what that frame adds. -/
theorem State.setFrame_quotaCount (s : State) (f : Frame) (r : FrameRecord) (p : Port) :
    (s.setFrame f r).quotaCount p + (s.frame f).load p = s.quotaCount p + r.load p := by
  rw [State.quotaCount_eq_sum, State.quotaCount_eq_sum, ← Finset.add_sum_erase _ _ (Finset.mem_univ f),
    ← Finset.add_sum_erase (Finset.univ) (fun g => (s.frame g).load p) (Finset.mem_univ f), State.setFrame_frame_same]
  have hrest : ∑ g ∈ Finset.univ.erase f, ((s.setFrame f r).frame g).load p =
      ∑ g ∈ Finset.univ.erase f, (s.frame g).load p :=
    Finset.sum_congr rfl fun g hg => by rw [State.setFrame_frame_of_ne _ _ _ _ (Finset.ne_of_mem_erase hg)]
  rw [hrest]
  omega

/-- Where no frame adds more to a count, the count is no larger. -/
theorem State.quotaCount_le {s t : State} {p : Port} (h : ∀ f, (t.frame f).load p ≤ (s.frame f).load p) :
    t.quotaCount p ≤ s.quotaCount p := by
  rw [State.quotaCount_eq_sum, State.quotaCount_eq_sum]
  exact Finset.sum_le_sum fun f _ => h f

theorem quotaKept_reads : ReadsOnly State.QuotaKept [.splitQuota, .frame .owner, .frame .reservation] :=
  fun s t h hs hsplit p => by
    have hmode : t.splitQuota = s.splitQuota := h .splitQuota (by decide)
    refine (State.quotaCount_le (s := s) fun f => ?_).trans (hs (hmode ▸ hsplit) p)
    have howner : (t.frame f).owner = (s.frame f).owner := h (.frame .owner) (by decide) f
    have hres : (t.frame f).reservation = (s.frame f).reservation := h (.frame .reservation) (by decide) f
    simp only [FrameRecord.load, howner, hres]
    exact le_rfl

/-- A record that adds no more to any count. -/
theorem State.QuotaKept.setFrame_le {s : State} (hs : s.QuotaKept) {f : Frame} {r : FrameRecord}
    (h : ∀ p, r.load p ≤ (s.frame f).load p) : (s.setFrame f r).QuotaKept := fun hsplit p => by
  have := s.setFrame_quotaCount f r p
  have := hs hsplit p
  have := h p
  omega

/-- A record that adds one to the count of a port below its quota. -/
theorem State.QuotaKept.setFrame_add {s : State} (hs : s.QuotaKept) {f : Frame} {r : FrameRecord} {q : Port}
    (hquota : s.quotaFull q = false) (h : ∀ p, r.load p ≤ (s.frame f).load p + (p == q).toNat) :
    (s.setFrame f r).QuotaKept := fun hsplit p => by
  have hsum := s.setFrame_quotaCount f r p
  have hle := hs hsplit p
  have hadd := h p
  by_cases hp : p = q
  · subst hp
    have hlt : s.quotaCount p < 16 := by
      rw [State.quotaFull_false_iff] at hquota
      exact Nat.lt_of_not_le fun hge => hquota ⟨hsplit, hge⟩
    rw [beq_self_eq_true, Bool.toNat_true] at hadd
    omega
  · rw [beq_eq_false_iff_ne.mpr hp, Bool.toNat_false] at hadd
    omega

theorem FrameRecord.load_owner {r : FrameRecord} {p : Port} (howner : r.owner = some p) (hres : r.reservation = none)
    (q : Port) : r.load q = (q == p).toNat := by
  simp [FrameRecord.load, howner, hres, BEq.comm]

theorem DirectoryMove.keeps_quotaKept {closed : Port → Prop} (s t : State) (h : DirectoryMove closed s t)
    (hf : s.FramesLegal) (hs : s.QuotaKept) : t.QuotaKept := by
  cases h
  case other h => exact quotaKept_reads.keep h rfl hs
  case grant f p hfree _ hquota =>
    have hres := (hf f).reservation_of_ne (by rw [hfree]; nofun)
    refine hs.setFrame_add hquota fun q => ?_
    rw [FrameRecord.load_owner (r := FrameRecord.granted _ p) (p := p) rfl hres]
    omega
  case reserve f p _ hnone _ hquota =>
    refine hs.setFrame_add hquota fun q => ?_
    simp [FrameRecord.load, hnone, BEq.comm]
  case release f p _ _ _ =>
    refine quotaKept_reads.keep (State.setScrubQueue_changes _ _) rfl (hs.setFrame_le fun q => ?_)
    simp [FrameRecord.load, FrameRecord.givenUp]
  case giveUp f p _ _ =>
    refine quotaKept_reads.keep (State.setScrubQueue_changes _ _) rfl (hs.setFrame_le fun q => ?_)
    simp [FrameRecord.load, FrameRecord.givenUp]
  case offer o _ _ _ _ _ _ _ _ => exact quotaKept_reads.keep (s.makeOffer_changes o) rfl hs
  case endOffer f => exact quotaKept_reads.keep (s.endOffer_changes f) rfl hs
  case accept f p o hi _ hquota =>
    obtain ⟨-, ho, -⟩ := State.inboxOffer_eq_some_iff.mp hi
    obtain ⟨-, -, -, hres⟩ := (hf f).of_owner ((hf f).2.2.1 o ho).2.1
    refine quotaKept_reads.keep (State.setInbox_changes _ _ _) rfl (hs.setFrame_add hquota fun q => ?_)
    rw [FrameRecord.load_owner (r := FrameRecord.passed _ p) (p := p) rfl hres]
    omega
  case inherit f p q _ howner _ _ hquota =>
    obtain ⟨-, -, -, hres⟩ := (hf f).of_owner howner
    refine hs.setFrame_add hquota fun x => ?_
    rw [FrameRecord.load_owner (r := FrameRecord.passed _ q) (p := q) rfl hres]
    omega
  all_goals exact hs.setFrame_le fun q => le_rfl

/-! ## Every command -/

/-- Scrub done frees the frame or grants it to its reserver, who counted it already (R11, R38). -/
theorem State.reportScrubbed_framesLegal {s : State} (hs : s.FramesLegal) (f : Frame) :
    (s.reportScrubbed f).FramesLegal := by
  unfold State.reportScrubbed
  split
  · exact State.setFrame_framesLegal hs ((s.frame f).scrubbedFree_legal f)
  · exact framesLegal_reads.keep (State.handOver_changes ..) rfl
      (State.setFrame_framesLegal hs ((s.frame f).scrubbedFor_legal f _))

theorem State.QuotaKept.reportScrubbed {s : State} (hs : s.QuotaKept) (f : Frame) : (s.reportScrubbed f).QuotaKept := by
  unfold State.reportScrubbed
  split
  · refine hs.setFrame_le fun q => ?_
    simp [FrameRecord.load, FrameRecord.scrubbedFree]
  · rename_i p hres
    refine quotaKept_reads.keep (State.handOver_changes ..) rfl (hs.setFrame_le fun q => ?_)
    simp [FrameRecord.load, FrameRecord.scrubbedFor, FrameRecord.scrubbedFree, FrameRecord.granted, hres]

theorem State.closeGrants_framesLegal {s : State} (hs : s.FramesLegal) (p : Port) : (s.closeGrants p).FramesLegal := by
  refine framesLegal_reads.keep (State.setClosingTaken_changes _ p true) rfl fun f => ?_
  simp only [State.frame, State.setFrames, sel_mapAll]
  exact (hs f).withoutPort p

theorem State.QuotaKept.closeGrants {s : State} (hs : s.QuotaKept) (p : Port) : (s.closeGrants p).QuotaKept := by
  refine quotaKept_reads.keep (State.setClosingTaken_changes _ p true) rfl fun hsplit q => ?_
  refine (State.quotaCount_le (s := s) fun f => ?_).trans (hs hsplit q)
  simp only [State.frame, State.setFrames, sel_mapAll, FrameRecord.load, FrameRecord.withoutPort]
  have hres : (((sel s.frames f).reservation.filter fun q => q != p) == some q).toNat ≤
      ((sel s.frames f).reservation == some q).toNat := by
    cases (sel s.frames f).reservation with
    | none => rfl
    | some x =>
      rw [Option.filter_some]
      split
      · exact le_rfl
      · exact Nat.zero_le _
  omega

/-- The frame records are legal, and the quota is kept if it has been. -/
def State.FramesAndQuota (q : Prop) (s : State) : Prop := s.FramesLegal ∧ (q → s.QuotaKept)

section

variable {q : Prop}

theorem framesAndQuota_reads : ReadsOnly (State.FramesAndQuota q) (.splitQuota :: frameParts) := fun s t h hs =>
  ⟨framesLegal_reads s t (fun x hx => h x (List.mem_cons_of_mem _ hx)) hs.1, fun hq =>
    quotaKept_reads s t (fun x hx => h x ((by decide : [Part.splitQuota, .frame .owner, .frame .reservation] ⊆
      .splitQuota :: frameParts) hx)) (hs.2 hq)⟩

theorem DirectoryMoves.keeps_framesAndQuota {closed : Port → Prop} {s t : State} (h : DirectoryMoves closed s t)
    (hs : s.FramesAndQuota q) : t.FramesAndQuota q :=
  h.keep (fun s t h hs => ⟨h.keeps_framesLegal s t hs.1, fun hq => h.keeps_quotaKept s t hs.1 (hs.2 hq)⟩) hs

theorem State.FramesAndQuota.refclk {s : State} (hs : s.FramesAndQuota q) : s.refclk.FramesAndQuota q := by
  rcases s.refclk_cases with ⟨-, he⟩ | ⟨-, -, he⟩ | ⟨-, he⟩ <;> rw [he]
  · exact hs
  · exact framesAndQuota_reads.keep (s.setTickCount_changes _) rfl hs
  · exact (State.takeTick_moves (closed := fun _ => False) _).keeps_framesAndQuota
      (framesAndQuota_reads.keep (s.setTickCount_changes 0) rfl hs)

theorem exec_keeps_framesAndQuota (c : Instr) (s t : State) (h : exec c s = .next t) (hs : s.FramesAndQuota q) :
    t.FramesAndQuota q := by
  have hc := exec_changes h
  have keeps {act : State → State} (hr : whileRunning s act = .next t)
      (hact : (act s).FramesAndQuota q) : t.FramesAndQuota q :=
    whileRunning_keeps (P := State.FramesAndQuota q) hr hs fun _ => hact
  by_cases hdir : Instr.IsDirectory c
  · exact (exec_moves h hdir).keeps_framesAndQuota hs
  cases c <;> first | exact absurd trivial hdir | unfold exec at h
  case tick =>
    have hwait : s.awaitTick.FramesAndQuota q := framesAndQuota_reads.keep (s.setTickCount_changes _) rfl hs
    exact keeps h hwait.refclk
  case scrubDone =>
    refine keeps h ?_
    split
    · exact hs
    · split
      · exact framesAndQuota_reads.keep ((State.setScrub_changes ..).trans (State.takeHead_changes _)) rfl
          (⟨State.reportScrubbed_framesLegal hs.1 _, fun hq => (hs.2 hq).reportScrubbed _⟩ :
            (s.reportScrubbed _).FramesAndQuota q)
      · exact hs
  case directoryClosing p =>
    refine keeps h ?_
    split
    · rename_i x rest _
      split
      · rw [State.closeAtDirectory_eq]
        have hmail : (s.setDirMail rest).FramesAndQuota q := framesAndQuota_reads.keep (s.setDirMail_changes rest) rfl hs
        have hgrants : ((s.setDirMail rest).closeGrants p).FramesAndQuota q :=
          ⟨State.closeGrants_framesLegal hmail.1 p, fun hq => (hmail.2 hq).closeGrants p⟩
        exact framesAndQuota_reads.keep (State.handOver_changes ..) rfl
          ((State.settleOffers_moves (closed := fun _ => False) _ p).keeps_framesAndQuota hgrants)
      · exact hs
    · exact hs
  case disposal p =>
    refine keeps h ?_
    split
    · rename_i x rest _
      split
      · rw [State.disposeAll_eq]
        exact framesAndQuota_reads.keep (State.setDisposalDone_changes _ p true) rfl
          ((State.disposeFrames_moves _ p).keeps_framesAndQuota
            (framesAndQuota_reads.keep (s.setDirMail_changes rest) rfl hs))
      · exact hs
    · exact hs
  case rstAsserted => exact framesAndQuota_reads.keep hc rfl hs
  case rstRisingEdge qmode prst =>
    cases h
    split
    · refine ⟨fun f => ?_, fun _ _ p => ?_⟩
      · simp only [State.frame, State.atRisingEdge, sel_replicate]
        simp [FrameRecord.reset, FrameRecord.Legal]
      · rw [State.quotaCount_eq_sum]
        simp [State.frame, State.atRisingEdge, FrameRecord.reset, FrameRecord.load]
    · exact hs
  all_goals exact framesAndQuota_reads.keep hc rfl hs

end

/-- Settles O55: each move of the directory keeps the records legal and the quota, and every command of the directory is a row
of moves. -/
theorem stepKeepsFrameRecordsAndQuota : Obligations.StepKeepsFrameRecordsAndQuota := fun s _ hs h =>
  step_keeps (P := State.FramesAndQuota s.QuotaKept) framesAndQuota_reads rfl (fun _ hs => hs.refclk)
    exec_keeps_framesAndQuota h ⟨hs, id⟩

end Sys2Proof.Machine
end

section
/-! SUPPORT. The offers that a closing or a tick goes through in a row (R51, R52, R67, R68): what the row leaves of each frame
record and of each inbox, and the events that it hands over. -/

namespace Sys2Proof.Machine

/-! ## One offer -/

/-- Where the offers stand: an inbox holds a frame once, and only one offered to its port. -/
def State.OffersPlaced (s : State) : Prop :=
  (∀ p, (s.inbox p).Nodup) ∧ (∀ p, ∀ f ∈ s.inbox p, ∃ o, (s.frame f).offer = some o ∧ o.recipient = p) ∧
    ∀ f o, (s.frame f).offer = some o → o.frame = f

theorem State.OffersPlaced.of_legal {s : State} (hf : s.FramesLegal) (hi : s.InboxesLegal) : s.OffersPlaced := by
  refine ⟨fun p => (hi p).1, fun p f hmem => ?_, fun f o ho => ((hf f).2.2.1 o ho).1⟩
  simpa only [Option.any_eq_true, beq_iff_eq] using ((hi p).2.2.1 f).mp hmem

theorem State.OffersPlaced.inbox_unique {s : State} (hs : s.OffersPlaced) {p q : Port} {f : Frame} (hq : f ∈ s.inbox q)
    (hp : f ∈ s.inbox p) : q = p := by
  obtain ⟨o, ho, hto⟩ := hs.2.1 q f hq
  obtain ⟨o', ho', hto'⟩ := hs.2.1 p f hp
  rw [ho] at ho'
  cases ho'
  exact hto.symm.trans hto'

/-- The record of a frame whose offer ends. -/
def FrameRecord.offerEnded (r : FrameRecord) : FrameRecord := { r with state := .owned, offer := none }

/-- An inbox loses the frame whose offer ends, wherever it stands. -/
theorem State.OffersPlaced.endOffer_inbox {s : State} (hs : s.OffersPlaced) (f : Frame) (p : Port) :
    (s.endOffer f).inbox p = (s.inbox p).filter fun g => g != f := by
  obtain ⟨hnodup, hplaced, hframe⟩ := hs
  have hnotin (q : Port) (h : ∀ o, (s.frame f).offer = some o → o.recipient ≠ q) :
      (s.inbox q).filter (fun g => g != f) = s.inbox q := by
    refine List.filter_eq_self.mpr fun g hg => ?_
    obtain ⟨o, ho, hq⟩ := hplaced q g hg
    simp only [bne_iff_ne, ne_eq]
    rintro rfl
    exact h o ho hq
  cases ho : (s.frame f).offer with
  | none => rw [State.endOffer_none ho, hnotin p (by simp [ho])]
  | some o =>
    rw [State.endOffer_some ho]
    by_cases hp : p = o.recipient
    · subst hp
      rw [State.setInbox_inbox_same, hframe f o ho, (hnodup _).erase_eq_filter]
    · rw [State.setInbox_inbox_of_ne _ _ _ _ hp, State.setFrame_inbox, hnotin p (by simpa [ho] using Ne.symm hp)]

theorem State.endOffer_frame {s : State} {f : Frame} {o : Offer} (ho : (s.frame f).offer = some o) (g : Frame) :
    (s.endOffer f).frame g = if g = f then (s.frame f).offerEnded else s.frame g := by
  rw [State.endOffer_some ho]
  exact State.setFrame_frame s f _ g

theorem State.OffersPlaced.endOffer {s : State} (hs : s.OffersPlaced) (f : Frame) : (s.endOffer f).OffersPlaced := by
  cases ho : (s.frame f).offer with
  | none => rwa [State.endOffer_none ho]
  | some o =>
    refine ⟨fun p => ?_, fun p g hg => ?_, fun g o' ho' => ?_⟩
    · rw [hs.endOffer_inbox]
      exact (hs.1 p).filter _
    · rw [hs.endOffer_inbox, List.mem_filter, bne_iff_ne] at hg
      rw [State.endOffer_frame ho, if_neg hg.2]
      exact hs.2.1 p g hg.1
    · rw [State.endOffer_frame ho] at ho'
      split at ho'
      · cases ho'
      · exact hs.2.2 g o' ho'

theorem State.OffersPlaced.setOffer {s : State} (hs : s.OffersPlaced) {f : Frame} {o o' : Offer}
    (ho : (s.frame f).offer = some o) (hframe : o'.frame = o.frame) (hto : o'.recipient = o.recipient) :
    (s.setFrame f { s.frame f with offer := some o' }).OffersPlaced := by
  obtain ⟨hnodup, hplaced, hnames⟩ := hs
  refine ⟨hnodup, fun p g hg => ?_, fun g x hx => ?_⟩
  · obtain ⟨x, hx, hp⟩ := hplaced p g hg
    rw [State.setFrame_frame]
    split
    · subst g
      rw [ho] at hx
      cases hx
      exact ⟨o', rfl, hto.trans hp⟩
    · exact ⟨x, hx, hp⟩
  · rw [State.setFrame_frame] at hx
    split at hx
    · subst g
      cases hx
      exact hframe.trans (hnames f o ho)
    · exact hnames g x hx

/-! ## A row of offers -/

/-- What a row does to the offers it goes through: those that end, what the others become, and the events of an end. -/
structure OfferRow where
  ends : Offer → Bool
  kept : Offer → Offer
  events : Frame → Offer → List (Port × EventRecord)

/-- The row goes on to one more frame. -/
def OfferRow.step (d : OfferRow) (acc : State × List (Port × EventRecord)) (f : Frame) :
    State × List (Port × EventRecord) :=
  match (acc.1.frame f).offer with
  | none => acc
  | some o =>
    if d.ends o then (acc.1.endOffer f, acc.2 ++ d.events f o)
    else (acc.1.setFrame f { acc.1.frame f with offer := some (d.kept o) }, acc.2)

/-- What the row makes of a frame's record. -/
def OfferRow.record (d : OfferRow) (r : FrameRecord) : FrameRecord :=
  match r.offer with
  | none => r
  | some o => if d.ends o then r.offerEnded else { r with offer := some (d.kept o) }

/-- The row ends the record's offer. -/
def OfferRow.endsIn (d : OfferRow) (r : FrameRecord) : Bool := r.offer.any d.ends

/-- The events that the row hands over for a frame. -/
def OfferRow.eventsOf (d : OfferRow) (f : Frame) (r : FrameRecord) : List (Port × EventRecord) :=
  (r.offer.filter d.ends).toList.flatMap (d.events f)

/-- The row leaves an offer's frame and recipient as they are. -/
def OfferRow.KeepsPlace (d : OfferRow) : Prop := ∀ o, (d.kept o).frame = o.frame ∧ (d.kept o).recipient = o.recipient

section

variable {d : OfferRow} (hd : d.KeepsPlace) (acc : State × List (Port × EventRecord))

theorem OfferRow.step_none {f : Frame} (ho : (acc.1.frame f).offer = none) : d.step acc f = acc := by
  simp only [OfferRow.step, ho]

theorem OfferRow.step_ended {f : Frame} {o : Offer} (ho : (acc.1.frame f).offer = some o) (he : d.ends o = true) :
    d.step acc f = (acc.1.endOffer f, acc.2 ++ d.events f o) := by
  simp only [OfferRow.step, ho, he, if_true]

theorem OfferRow.step_kept {f : Frame} {o : Offer} (ho : (acc.1.frame f).offer = some o) (he : d.ends o = false) :
    d.step acc f = (acc.1.setFrame f { acc.1.frame f with offer := some (d.kept o) }, acc.2) := by
  simp only [OfferRow.step, ho, he, Bool.false_eq_true, if_false]

theorem OfferRow.step_frame (f g : Frame) :
    (d.step acc f).1.frame g = if g = f then d.record (acc.1.frame f) else acc.1.frame g := by
  cases ho : (acc.1.frame f).offer with
  | none =>
    rw [OfferRow.step_none _ ho]
    split
    · simp_all [OfferRow.record]
    · rfl
  | some o =>
    cases he : d.ends o with
    | true => simp only [OfferRow.step_ended _ ho he, State.endOffer_frame ho, OfferRow.record, ho, he, if_true]
    | false =>
      simp only [OfferRow.step_kept _ ho he, State.setFrame_frame, OfferRow.record, ho, he, Bool.false_eq_true, if_false]

theorem OfferRow.step_inbox (hs : acc.1.OffersPlaced) (f : Frame) (p : Port) :
    (d.step acc f).1.inbox p = (acc.1.inbox p).filter fun g => !(g == f && d.endsIn (acc.1.frame g)) := by
  have hkeep (hnot : d.endsIn (acc.1.frame f) = false) :
      (acc.1.inbox p).filter (fun g => !(g == f && d.endsIn (acc.1.frame g))) = acc.1.inbox p := by
    refine List.filter_eq_self.mpr fun g _ => ?_
    by_cases hg : g = f
    · subst hg; simp [hnot]
    · simp [hg]
  cases ho : (acc.1.frame f).offer with
  | none => rw [OfferRow.step_none _ ho, hkeep (by simp [OfferRow.endsIn, ho])]
  | some o =>
    cases he : d.ends o with
    | true =>
      rw [OfferRow.step_ended _ ho he, hs.endOffer_inbox]
      refine List.filter_congr fun g _ => ?_
      by_cases hg : g = f
      · subst hg; simp [OfferRow.endsIn, ho, he]
      · simp only [bne, beq_eq_false_iff_ne.mpr hg, Bool.false_and]
    | false =>
      rw [OfferRow.step_kept _ ho he, hkeep (by simp [OfferRow.endsIn, ho, he])]
      rfl

theorem OfferRow.step_events (f : Frame) : (d.step acc f).2 = acc.2 ++ d.eventsOf f (acc.1.frame f) := by
  unfold OfferRow.eventsOf
  cases ho : (acc.1.frame f).offer with
  | none => simp [OfferRow.step_none _ ho]
  | some o =>
    cases he : d.ends o with
    | true => simp [OfferRow.step_ended _ ho he, Option.filter, he]
    | false => simp [OfferRow.step_kept _ ho he, Option.filter, he]

include hd in
theorem OfferRow.step_placed (hs : acc.1.OffersPlaced) (f : Frame) : (d.step acc f).1.OffersPlaced := by
  cases ho : (acc.1.frame f).offer with
  | none => rwa [OfferRow.step_none _ ho]
  | some o =>
    cases he : d.ends o with
    | true =>
      rw [OfferRow.step_ended _ ho he]
      exact hs.endOffer f
    | false =>
      rw [OfferRow.step_kept _ ho he]
      exact hs.setOffer ho (hd o).1 (hd o).2

include hd in
theorem OfferRow.foldl_placed (hs : acc.1.OffersPlaced) (l : List Frame) : (l.foldl d.step acc).1.OffersPlaced := by
  induction l generalizing acc with
  | nil => exact hs
  | cons f l ih => exact ih _ (OfferRow.step_placed hd acc hs f)

/-- A step of the row writes the frame records and the inboxes alone. -/
theorem OfferRow.step_rest (f : Frame) :
    ∃ frames inboxes, (d.step acc f).1 = { acc.1 with frames := frames, inboxes := inboxes } := by
  unfold OfferRow.step State.endOffer
  split
  · exact ⟨_, _, rfl⟩
  · split
    · split <;> exact ⟨_, _, rfl⟩
    · exact ⟨_, _, rfl⟩

theorem OfferRow.foldl_rest (l : List Frame) :
    ∃ frames inboxes, (l.foldl d.step acc).1 = { acc.1 with frames := frames, inboxes := inboxes } := by
  induction l generalizing acc with
  | nil => exact ⟨_, _, rfl⟩
  | cons f l ih =>
    obtain ⟨v, w, hvw⟩ := ih (d.step acc f)
    obtain ⟨v', w', hvw'⟩ := OfferRow.step_rest (d := d) acc f
    exact ⟨v, w, by rw [List.foldl_cons, hvw, hvw']⟩

theorem OfferRow.foldl_frame {l : List Frame} (hl : l.Nodup) (g : Frame) :
    (l.foldl d.step acc).1.frame g = if g ∈ l then d.record (acc.1.frame g) else acc.1.frame g := by
  induction l generalizing acc with
  | nil => simp
  | cons f l ih =>
    obtain ⟨hf, hl⟩ := List.nodup_cons.mp hl
    rw [List.foldl_cons, ih _ hl, OfferRow.step_frame]
    by_cases hg : g = f
    · subst hg; simp [hf]
    · simp [hg]

include hd in
theorem OfferRow.foldl_inbox {l : List Frame} (hl : l.Nodup) (hs : acc.1.OffersPlaced) (p : Port) :
    (l.foldl d.step acc).1.inbox p =
      (acc.1.inbox p).filter fun g => !(decide (g ∈ l) && d.endsIn (acc.1.frame g)) := by
  induction l generalizing acc with
  | nil => exact (List.filter_eq_self.mpr fun _ _ => rfl).symm
  | cons f l ih =>
    obtain ⟨hf, hl⟩ := List.nodup_cons.mp hl
    rw [List.foldl_cons, ih _ hl (OfferRow.step_placed hd acc hs f), OfferRow.step_inbox acc hs, List.filter_filter]
    refine List.filter_congr fun g _ => ?_
    rw [OfferRow.step_frame]
    by_cases hg : g = f
    · subst hg; simp [hf]
    · simp [hg]

theorem OfferRow.foldl_events {l : List Frame} (hl : l.Nodup) :
    (l.foldl d.step acc).2 = acc.2 ++ l.flatMap fun f => d.eventsOf f (acc.1.frame f) := by
  induction l generalizing acc with
  | nil => simp
  | cons f l ih =>
    obtain ⟨hf, hl⟩ := List.nodup_cons.mp hl
    rw [List.foldl_cons, ih _ hl, OfferRow.step_events, List.flatMap_cons, List.append_assoc]
    congr 2
    refine List.flatMap_congr fun g hg => ?_
    rw [OfferRow.step_frame, if_neg fun (he : g = f) => hf (he ▸ hg)]

end

/-! ## The rows of the model -/

/-- The offers in a closing port's inbox return to their offerers (R67). -/
def returnRow (p : Port) : OfferRow :=
  { ends := fun _ => true, kept := id, events := fun f o => [(o.offerer, Event.offerReturned p f)] }

/-- The offers that a closing port has made are cancelled (R68). -/
def cancelRow (p : Port) : OfferRow :=
  { ends := fun o => o.offerer == p, kept := id
    events := fun f o => [(o.recipient, Event.offerCancelled p f .peerDown)] }

/-- A tick lowers the offers with a timeout, and those at 1 expire (R51, R52). -/
def tickRow : OfferRow :=
  { ends := fun o => o.timeout != 0 && decide (o.remaining.toNat ≤ 1)
    kept := fun o => if o.timeout = 0 then o else { o with remaining := o.remaining - 1 }
    events := fun _ o => expiryEvents o }

theorem State.setFrame_offer_self {s : State} {f : Frame} {o : Offer} (ho : (s.frame f).offer = some o) :
    s.setFrame f { s.frame f with offer := some o } = s := by
  rw [← ho]
  exact congrArg s.setFrames (put_sel s.frames f)

theorem returnOffer_eq (p : Port) : returnOffer p = (returnRow p).step := by
  funext acc f
  unfold returnOffer OfferRow.step
  cases (acc.1.frame f).offer <;> rfl

theorem cancelOffer_eq (p : Port) : cancelOffer p = (cancelRow p).step := by
  funext acc f
  unfold cancelOffer OfferRow.step
  cases ho : (acc.1.frame f).offer with
  | none => rfl
  | some o =>
    by_cases hp : o.offerer = p
    · simp [cancelRow, hp]
    · simp [cancelRow, hp, State.setFrame_offer_self ho]

theorem tickFrame_eq : tickFrame = tickRow.step := by
  funext acc f
  unfold tickFrame OfferRow.step
  cases ho : (acc.1.frame f).offer with
  | none => rfl
  | some o =>
    by_cases ht : o.timeout = 0#16
    · simp [tickRow, ht, State.setFrame_offer_self ho]
    · by_cases hle : o.remaining.toNat ≤ 1 <;> simp [tickRow, ht, hle]

theorem returnRow_keepsPlace (p : Port) : (returnRow p).KeepsPlace := fun _ => ⟨rfl, rfl⟩

theorem cancelRow_keepsPlace (p : Port) : (cancelRow p).KeepsPlace := fun _ => ⟨rfl, rfl⟩

theorem tickRow_keepsPlace : tickRow.KeepsPlace := fun o => by
  simp only [tickRow]
  split <;> exact ⟨rfl, rfl⟩

theorem mem_allFrames (f : Frame) : f ∈ allFrames := List.mem_finRange f

theorem allFrames_nodup : allFrames.Nodup := List.nodup_finRange 64

/-! ## The closing of a port -/

section

variable {s : State} {p : Port}

/-- The offers in the closing port's inbox have ended, and then those that it has made. -/
theorem State.settleOffers_eq (s : State) (p : Port) :
    s.settleOffers p = allFrames.foldl (cancelRow p).step ((s.inbox p).foldl (returnRow p).step (s, [])) := by
  rw [← returnOffer_eq, ← cancelOffer_eq]
  rfl

/-- The offer names the port as one of its parties. -/
def Offer.names (o : Offer) (p : Port) : Bool := o.offerer == p || o.recipient == p

variable (hi : s.InboxesLegal)
include hi

/-- The returned part of a settled state: the frames of the closing port's inbox. -/
theorem State.returned_frame (f : Frame) :
    ((s.inbox p).foldl (returnRow p).step (s, [])).1.frame f =
      if f ∈ s.inbox p then (s.frame f).offerEnded else s.frame f := by
  rw [OfferRow.foldl_frame _ (hi p).1]
  refine if_ctx_congr Iff.rfl (fun hin => ?_) fun _ => rfl
  obtain ⟨o, ho, -⟩ := (Option.any_eq_true _ _).mp (((hi p).2.2.1 f).mp hin)
  simp [OfferRow.record, ho, returnRow]

/-- A settled frame record: its offer has ended where the closing port is one of its parties. -/
theorem State.settleOffers_frame (f : Frame) :
    (s.settleOffers p).1.frame f =
      if (s.frame f).offer.any (Offer.names · p) then (s.frame f).offerEnded else s.frame f := by
  rw [State.settleOffers_eq, OfferRow.foldl_frame _ allFrames_nodup, if_pos (mem_allFrames f), State.returned_frame hi]
  have hmem := (hi p).2.2.1 f
  cases ho : (s.frame f).offer with
  | none =>
    have hnot : f ∉ s.inbox p := fun h => by simpa [ho] using hmem.mp h
    simp [hnot, OfferRow.record, ho]
  | some o =>
    rw [ho] at hmem
    by_cases hto : o.recipient = p
    · have hin : f ∈ s.inbox p := hmem.mpr (by simp [hto])
      simp [hin, OfferRow.record, FrameRecord.offerEnded, Offer.names, hto]
    · have hnot : f ∉ s.inbox p := fun h => hto (by simpa using hmem.mp h)
      by_cases hfrom : o.offerer = p
      · simp [hnot, OfferRow.record, ho, cancelRow, Offer.names, hfrom]
      · simp [hnot, OfferRow.record, ho, cancelRow, Offer.names, hfrom, hto]
        rw [← ho]

/-- A settled inbox: empty at the closing port, and elsewhere without the offers that it has made. -/
theorem State.settleOffers_inbox (hf : s.FramesLegal) (q : Port) :
    (s.settleOffers p).1.inbox q =
      if q = p then [] else (s.inbox q).filter fun f => !(s.frame f).offer.any fun o => o.offerer == p := by
  have hplaced := State.OffersPlaced.of_legal hf hi
  have hreturned (q : Port) : ((s.inbox p).foldl (returnRow p).step (s, [])).1.inbox q =
      if q = p then [] else s.inbox q := by
    rw [OfferRow.foldl_inbox (returnRow_keepsPlace p) _ (hi p).1 hplaced]
    split
    · subst q
      refine List.filter_eq_nil_iff.mpr fun f hin => ?_
      obtain ⟨o, ho, -⟩ := hplaced.2.1 p f hin
      simp [hin, OfferRow.endsIn, ho, returnRow]
    · rename_i hne
      refine List.filter_eq_self.mpr fun f hin => ?_
      have hnot : f ∉ s.inbox p := fun h => hne (hplaced.inbox_unique hin h)
      simp [hnot]
  have hplaced' := OfferRow.foldl_placed (returnRow_keepsPlace p) (s, []) hplaced (s.inbox p)
  rw [State.settleOffers_eq, OfferRow.foldl_inbox (cancelRow_keepsPlace p) _ allFrames_nodup hplaced', hreturned]
  split
  · rfl
  · rename_i hne
    refine List.filter_congr fun f hin => ?_
    have hnot : f ∉ s.inbox p := fun h => hne (hplaced.inbox_unique hin h)
    rw [State.returned_frame hi, if_neg hnot]
    simp [mem_allFrames, OfferRow.endsIn, cancelRow]

/-- The events of a settled closing: the returns in inbox order, then the cancellations in ascending frame number. -/
theorem State.settleOffers_events (hf : s.FramesLegal) :
    (s.settleOffers p).2 =
      ((s.inbox p).flatMap fun f =>
          (s.frame f).offer.toList.map fun o : Offer => (o.offerer, Event.offerReturned p f)) ++
        (allFrames.filter fun f => (s.frame f).offer.any fun o => o.offerer == p).flatMap fun f =>
          (s.frame f).offer.toList.map fun o : Offer => (o.recipient, Event.offerCancelled p f .peerDown) := by
  have hcancel (l : List Frame) :
      (l.flatMap fun f => (cancelRow p).eventsOf f (((s.inbox p).foldl (returnRow p).step (s, [])).1.frame f)) =
        (l.filter fun f => (s.frame f).offer.any fun o => o.offerer == p).flatMap fun f =>
          (s.frame f).offer.toList.map fun o : Offer => (o.recipient, Event.offerCancelled p f .peerDown) := by
    induction l with
    | nil => rfl
    | cons f l ih =>
      rw [List.flatMap_cons, ih, State.returned_frame hi, List.filter_cons]
      have hmem := (hi p).2.2.1 f
      cases ho : (s.frame f).offer with
      | none =>
        have hnot : f ∉ s.inbox p := fun h => by simpa [ho] using hmem.mp h
        simp [hnot, OfferRow.eventsOf, ho]
      | some o =>
        rw [ho] at hmem
        obtain ⟨-, -, hne, -⟩ := (hf f).2.2.1 o ho
        by_cases hfrom : o.offerer = p
        · have hnot : f ∉ s.inbox p := fun h => hne (by
            have hto : o.recipient = p := by simpa using hmem.mp h
            rw [hto, hfrom])
          simp [hnot, OfferRow.eventsOf, ho, cancelRow, hfrom, Option.filter]
        · simp only [Option.any_some, beq_eq_false_iff_ne.mpr hfrom, Bool.false_eq_true, if_false]
          split
          · simp [OfferRow.eventsOf, FrameRecord.offerEnded]
          · simp [OfferRow.eventsOf, ho, cancelRow, hfrom, Option.filter]
  have hreturn : ((s.inbox p).flatMap fun f => (returnRow p).eventsOf f (s.frame f)) =
      (s.inbox p).flatMap fun f =>
        (s.frame f).offer.toList.map fun o : Offer => (o.offerer, Event.offerReturned p f) :=
    List.flatMap_congr fun f _ => by
      cases ho : (s.frame f).offer <;> simp [OfferRow.eventsOf, returnRow, ho, Option.filter]
  rw [State.settleOffers_eq, OfferRow.foldl_events _ allFrames_nodup, OfferRow.foldl_events _ (hi p).1, hcancel, hreturn]
  rfl

end

end Sys2Proof.Machine
end

section
/-! SUPPORT. The moves of the sessions: the commands that write the session states, the requests on their way to the
directory and its view of the ports are each a row of a few moves. -/

namespace Sys2Proof.Machine

/-- What the moves of the sessions write. -/
def sessionParts : List Part :=
  [.session .state, .session .annCopy, .session .jobGone, .session .disposalDone, .dirMail, .closingTaken]

/-- The parts that a command may write beside its moves of the sessions. -/
def besideParts : List Part :=
  [.session .prstLow, .window .delayed, .frame .state, .frame .owner, .frame .readers, .frame .fallback, .frame .offer,
    .frame .reservation, .inboxes, .scrubQueue]

/-- One change of the sessions, or of other parts of the directory beside it. `gone p` lets the disposal of a port's frames be
reported. -/
inductive SessionMove (gone : Port → Prop) : State → State → Prop
  /-- Other parts of the state change. -/
  | other {s t : State} (h : s.Changes t besideParts) : SessionMove gone s t
  /-- An UP port enters CLOSING (R169, R171). -/
  | close {s : State} {p : Port} {rejoin : Bool} (hup : (s.session p).state = .up) :
      SessionMove gone s (s.enterClosing p rejoin)
  /-- Rejoin changes in CLOSING (R169, R170). -/
  | rejoin {s : State} {p : Port} {old new : Bool} {step : TeardownStep}
      (hclosing : (s.session p).state = .closing old step) :
      SessionMove gone s (s.setSession p { s.session p with state := .closing new step })
  /-- A DOWN port enters UP (R170, R179). -/
  | enter {s : State} {p : Port} (hdown : (s.session p).state = .down) : SessionMove gone s (s.enterUp p)
  /-- The directory takes a closing (R26). -/
  | taken {s : State} {p : Port} {rest : List DirMail} (hmail : s.dirMail = .closing p :: rest) :
      SessionMove gone s ((s.setDirMail rest).setClosingTaken p true)
  /-- The teardown moves on from its job (R178). -/
  | jobGone {s : State} {p : Port} {rejoin : Bool} (hrst : s.rstLow = false)
      (hclosing : (s.session p).state = .closing rejoin .awaitJob)
      (hgone : (s.session p).jobGone = true) :
      SessionMove gone s ((s.setSession p { s.session p with
        state := .closing rejoin .awaitDisposal, jobGone := false }).setDirMail (s.dirMail ++ [.dispose p]))
  /-- The directory has disposed of the port's frames (R28). -/
  | disposed {s : State} {p : Port} {rest : List DirMail} (hgone : gone p) (hrst : s.rstLow = false)
      (hmail : s.dirMail = .dispose p :: rest) (htaken : s.dirUp p = false) :
      SessionMove gone s ((s.setDirMail rest).setSession p { s.session p with disposalDone := true })
  /-- The teardown completes (R179, R180). -/
  | complete {s : State} {p : Port} {rejoin : Bool} (hrst : s.rstLow = false)
      (hclosing : (s.session p).state = .closing rejoin .awaitDisposal) (hdone : (s.session p).disposalDone = true)
      (hsettled : s.closingSettled p = true) :
      SessionMove gone s (s.setSession p { s.session p with state := .down, disposalDone := false })

/-- A row of moves of the sessions. -/
abbrev SessionMoves (gone : Port → Prop) : State → State → Prop := Relation.ReflTransGen (SessionMove gone)

section

variable {gone : Port → Prop}

theorem SessionMoves.keep {P : State → Prop} (hmove : ∀ s t, SessionMove gone s t → P s → P t) {s t : State}
    (h : SessionMoves gone s t) (hs : P s) : P t := by
  induction h with
  | refl => exact hs
  | tail _ hlast ih => exact hmove _ _ hlast ih

theorem SessionMove.then_other {s t u : State} (h : SessionMove gone s t) (hu : t.Changes u besideParts) : SessionMoves gone s u :=
  (Relation.ReflTransGen.single h).tail (.other hu)

/-- The parts of the state that a move of the sessions leaves. -/
theorem SessionMove.changes {s t : State} (h : SessionMove gone s t) :
    s.Changes t (sessionParts ++ [.session .annEvent, .session .annWindow] ++ besideParts) := by
  cases h
  case other h => exact h.mono (List.subset_append_right _ _)
  case close p rejoin _ => exact (s.enterClosing_changes p rejoin).mono (by decide)
  case enter p _ => exact (s.enterUp_changes p).mono (by decide)
  case taken p rest _ => exact ((s.setDirMail_changes rest).trans (State.setClosingTaken_changes _ p true)).mono (by decide)
  case jobGone p rejoin _ _ _ =>
    refine ((s.setSession_changes p _ [.session .state, .session .jobGone] fun k hk => ?_).trans
      (State.setDirMail_changes ..)).mono (by decide)
    cases k <;> first | exact absurd (by decide) hk | exact SessionField.same_of_refl rfl
  case disposed p rest _ _ _ _ =>
    refine ((s.setDirMail_changes rest).trans (State.setSession_changes _ p _ [.session .disposalDone]
      fun k hk => ?_)).mono (by decide)
    cases k <;> first | exact absurd (by decide) hk | exact SessionField.same_of_refl rfl
  all_goals
    refine (s.setSession_changes _ _ [.session .state, .session .disposalDone] fun k hk => ?_).mono (by decide)
    cases k <;> first | exact absurd (by decide) hk | exact SessionField.same_of_refl rfl

/-- A disposal done is reported whatever else has changed before. -/
theorem State.Changes.setDisposalDone {s t : State} {l : List Part} (h : s.Changes t l) (p : Port) (b : Bool) :
    (s.setSession p { s.session p with disposalDone := b }).Changes
      (t.setSession p { t.session p with disposalDone := b }) l := by
  refine ⟨fun x hx => ?_⟩
  have hx' := h.same_of_notMem x hx
  cases x
  case session k =>
    intro q
    rw [State.setSession_session, State.setSession_session]
    have hq := hx' q
    split
    · subst q
      cases k <;> first | exact hq | rfl
    · exact hq
  all_goals exact hx'

theorem State.assertPrst_moves (s : State) (p : Port) : SessionMoves gone s (s.assertPrst p) := by
  unfold State.assertPrst
  split
  · exact .single (.close ‹_›)
  · exact .single (.rejoin ‹_›)
  · exact .refl

theorem State.releasePrst_moves (s : State) (p : Port) : SessionMoves gone s (s.releasePrst p) := by
  unfold State.releasePrst
  split
  · exact .single (.enter ‹_›)
  · exact .single (.rejoin ‹_›)
  · exact .refl

theorem State.closeAtDirectory_moves {s : State} {p : Port} {rest : List DirMail} (hmail : s.dirMail = .closing p :: rest) :
    SessionMoves gone s ((s.setDirMail rest).closeAtDirectory p) := by
  refine SessionMove.then_other (.taken hmail) ?_
  rw [State.closeAtDirectory_eq]
  exact (((((s.setDirMail rest).setClosingTaken p true).withoutPort_changes p).trans
    (State.settleOffers_changes ((s.setDirMail rest).closeGrants p) p)).trans (State.handOver_changes ..)).mono (by decide)

theorem State.disposeAll_moves {s : State} {p : Port} {rest : List DirMail} (hrst : s.rstLow = false)
    (hmail : s.dirMail = .dispose p :: rest) (htaken : s.dirUp p = false) : SessionMoves (· = p) s ((s.setDirMail rest).disposeAll p) := by
  refine SessionMove.then_other (.disposed rfl hrst hmail htaken) ?_
  rw [State.disposeAll_eq]
  exact ((((State.foldl_changes (disposeFrame_changes p) allFrames (s.setDirMail rest, [])).trans
    (State.handOver_changes ..)).mono (by decide)).setDisposalDone p true)

end

/-- The commands that move the sessions. -/
def Instr.IsSession : Instr → Prop
  | .detach _ | .prstAsserted _ | .prstReleased _ | .directoryClosing _ | .jobGone _ | .disposal _ | .disposalDone _ =>
    True
  | _ => False

theorem exec_sessionMoves {c : Instr} {s t : State} (h : exec c s = .next t) (hc : Instr.IsSession c) :
    SessionMoves (Instr.closedPort c) s t := by
  have run {act : State → State} (hr : whileRunning s act = .next t)
      (hact : s.rstLow = false → SessionMoves (Instr.closedPort c) s (act s)) : SessionMoves (Instr.closedPort c) s t :=
    whileRunning_keeps (P := SessionMoves (Instr.closedPort c) s) hr .refl hact
  cases c <;> first | exact hc.elim | unfold exec at h
  case detach p =>
    refine run h fun _ => ?_
    rcases s.takeCommand_cases p (· == 0x3F) detachBody with ⟨he, -⟩ | ⟨k, -, -, hup, he⟩ | ⟨k, -, -, -, he⟩ <;> rw [he]
    · exact SessionMove.then_other (.close (State.isUp_iff.mp hup))
        ((State.setCommand_changes ..).mono (List.nil_subset _))
    · exact .single (.other ((s.discard_changes p).mono (List.nil_subset _)))
  case prstAsserted p =>
    refine run h fun _ => ?_
    split
    · exact .refl
    · refine .head (.other ((s.setPrst_changes p true).mono (by decide))) (.tail (State.assertPrst_moves _ p) (.other ?_))
      refine State.setWindow_changes _ p _ _ fun k hk => ?_
      rw [State.assertPrst_window]
      cases k <;> first | exact absurd (by decide) hk | exact WindowField.same_of_refl rfl
  case prstReleased p =>
    refine run h fun _ => ?_
    split
    · exact .head (.other ((s.setPrst_changes p false).mono (by decide))) (State.releasePrst_moves _ p)
    · exact .refl
  case directoryClosing p =>
    refine run h fun _ => ?_
    split
    · split
      · rename_i hmail hq
        subst hq
        exact State.closeAtDirectory_moves hmail
      · exact .refl
    · exact .refl
  case jobGone p =>
    refine run h fun hrst => ?_
    repeat' split
    · exact .single (.jobGone hrst ‹_› ‹_›)
    · exact .refl
    · exact .refl
  case disposal p =>
    refine run h fun hrst => ?_
    split
    · split
      · rename_i hmail hq
        obtain ⟨rfl, htaken⟩ := hq
        exact State.disposeAll_moves hrst hmail (by rw [State.dirUp, htaken]; rfl)
      · exact .refl
    · exact .refl
  case disposalDone p =>
    refine run h fun hrst => ?_
    split
    · rename_i hdone
      obtain ⟨hdone, hsettled⟩ := Bool.and_eq_true_iff.mp hdone
      split
      · dsimp only
        split
        · exact .tail (.single (.complete hrst ‹_› hdone hsettled)) (.enter (by rw [State.setSession_session_same]))
        · exact .single (.complete hrst ‹_› hdone hsettled)
      · exact .refl
    · exact .refl

end Sys2Proof.Machine
end

section
/-! SUPPORT. The directory's view of the ports and the requests on their way to it agree with the sessions (R10, R173). -/

namespace Sys2Proof.Machine

/-- What the directory's view of one port must satisfy. -/
def State.PortViewLegal (s : State) (p : Port) : Prop :=
  ((s.session p).state = .up → s.dirUp p = true) ∧ ((s.session p).state = .down → s.dirUp p = false) ∧
    (.closing p ∈ s.dirMail → s.isClosing p = true ∧ s.dirUp p = true) ∧
    (.dispose p ∈ s.dirMail → (s.session p).state.step? = some .awaitDisposal) ∧
    (s.isClosing p = true → s.rstLow = false → .closing p ∉ s.dirMail → s.dirUp p = false)

/-- No request twice, and an announcement ahead of its disposal. -/
def MailOrdered (l : List DirMail) : Prop :=
  l.Nodup ∧ ∀ p, .closing p ∈ l → .dispose p ∈ l → l.idxOf (.closing p) < l.idxOf (.dispose p)

theorem State.viewLegal_iff {s : State} : s.ViewLegal ↔ MailOrdered s.dirMail ∧ ∀ p, s.PortViewLegal p := and_assoc.symm

theorem State.isClosing_of_state {s : State} {p : Port} {rejoin : Bool} {step : TeardownStep}
    (h : (s.session p).state = .closing rejoin step) : s.isClosing p = true := State.isClosing_iff.mpr ⟨_, _, h⟩

theorem State.isClosing_of_up {s : State} {p : Port} (h : (s.session p).state = .up) : s.isClosing p = false := by
  simp [State.isClosing, h]

theorem State.isClosing_of_down {s : State} {p : Port} (h : (s.session p).state = .down) : s.isClosing p = false := by
  simp [State.isClosing, h]

theorem State.isClosing_congr {s t : State} {p : Port} (h : (t.session p).state = (s.session p).state) :
    t.isClosing p = s.isClosing p := by
  simp only [State.isClosing, h]

/-- A port whose session, view and requests are as they were. -/
theorem State.PortViewLegal.congr {s t : State} {p : Port} (hs : s.PortViewLegal p)
    (hst : (t.session p).state = (s.session p).state) (hup : t.dirUp p = s.dirUp p) (hrst : t.rstLow = s.rstLow)
    (hclosing : .closing p ∈ t.dirMail ↔ .closing p ∈ s.dirMail)
    (hdispose : .dispose p ∈ t.dirMail ↔ .dispose p ∈ s.dirMail) : t.PortViewLegal p := by
  unfold State.PortViewLegal
  rw [hst, hup, hrst, hclosing, hdispose, State.isClosing_congr hst]
  exact hs

theorem viewLegal_reads : ReadsOnly State.ViewLegal [.dirMail, .session .state, .closingTaken, .rstLow] :=
  fun s t h hs => by
    have hmail : t.dirMail = s.dirMail := h .dirMail (by decide)
    have htaken : t.closingTaken = s.closingTaken := h .closingTaken (by decide)
    rw [State.viewLegal_iff] at hs ⊢
    refine ⟨hmail ▸ hs.1, fun p => (hs.2 p).congr (h (.session .state) (by decide) p) ?_ (h .rstLow (by decide)) ?_ ?_⟩
    · simp only [State.dirUp, htaken]
    · rw [hmail]
    · rw [hmail]

theorem MailOrdered.append_closing {l : List DirMail} {p : Port} (hl : MailOrdered l) (hc : .closing p ∉ l)
    (hd : .dispose p ∉ l) : MailOrdered (l ++ [.closing p]) := by
  refine ⟨List.nodup_append.mpr ⟨hl.1, List.nodup_singleton _, ?_⟩, fun q hq hq' => ?_⟩
  · rintro x hx _ hy rfl
    exact hc (List.mem_singleton.mp hy ▸ hx)
  · have hdq : .dispose q ∈ l := by simpa using hq'
    have hne : q ≠ p := fun he => hd (he ▸ hdq)
    have hcq : .closing q ∈ l := by simpa [hne] using hq
    rw [List.idxOf_append_of_mem hcq, List.idxOf_append_of_mem hdq]
    exact hl.2 q hcq hdq

theorem MailOrdered.append_dispose {l : List DirMail} {p : Port} (hl : MailOrdered l) (hd : .dispose p ∉ l) :
    MailOrdered (l ++ [.dispose p]) := by
  refine ⟨List.nodup_append.mpr ⟨hl.1, List.nodup_singleton _, ?_⟩, fun q hq hq' => ?_⟩
  · rintro x hx _ hy rfl
    exact hd (List.mem_singleton.mp hy ▸ hx)
  · have hcq : .closing q ∈ l := by simpa using hq
    rw [List.idxOf_append_of_mem hcq]
    by_cases hdq : .dispose q ∈ l
    · rw [List.idxOf_append_of_mem hdq]
      exact hl.2 q hcq hdq
    · rw [List.idxOf_append_of_notMem hdq]
      exact Nat.lt_add_right _ (List.idxOf_lt_length_of_mem hcq)

theorem MailOrdered.tail {x : DirMail} {l : List DirMail} (hl : MailOrdered (x :: l)) : MailOrdered l := by
  obtain ⟨hnodup, horder⟩ := hl
  obtain ⟨hx, hl⟩ := List.nodup_cons.mp hnodup
  refine ⟨hl, fun q hc hd => ?_⟩
  have hlt := horder q (List.mem_cons_of_mem _ hc) (List.mem_cons_of_mem _ hd)
  have hxc : x ≠ .closing q := fun he => hx (he ▸ hc)
  have hxd : x ≠ .dispose q := fun he => hx (he ▸ hd)
  rw [List.idxOf_cons_ne _ hxc, List.idxOf_cons_ne _ hxd] at hlt
  omega

theorem State.enterUp_dirUp (s : State) (p q : Port) : (s.enterUp p).dirUp q = if q = p then true else s.dirUp q := by
  simp only [State.dirUp, State.enterUp, State.dropInTransit, State.setHandovers, State.setClosingTaken, sel_put]
  split
  · rfl
  · rfl

theorem SessionMove.keeps_viewLegal {gone : Port → Prop} (s t : State) (h : SessionMove gone s t) (hs : s.ViewLegal) : t.ViewLegal := by
  cases h
  case other h => exact viewLegal_reads.keep h rfl hs
  all_goals
    rw [State.viewLegal_iff] at hs ⊢
    obtain ⟨hmail, hport⟩ := hs
  case close p rejoin hup =>
    obtain ⟨hdirUp, -, hc, hd, -⟩ := hport p
    have hnc : .closing p ∉ s.dirMail := fun hm => by simp [State.isClosing_of_up hup] at hc; exact hc hm
    have hnd : .dispose p ∉ s.dirMail := fun hm => by simpa [hup, SessionState.step?] using hd hm
    refine ⟨hmail.append_closing hnc hnd, fun q => ?_⟩
    by_cases hq : q = p
    · subst hq
      have hst : ((s.enterClosing q rejoin).session q).state = .closing rejoin .awaitJob := by
        rw [State.enterClosing_session_same]
      refine ⟨by simp [hst], by simp [hst], fun _ => ⟨State.isClosing_of_state hst, hdirUp hup⟩, fun hm => ?_, ?_⟩
      · exact absurd (by simpa [State.enterClosing] using hm) hnd
      · exact fun _ _ hnot => absurd (by simp [State.enterClosing]) hnot
    · refine (hport q).congr (by rw [State.enterClosing_session_of_ne _ _ hq]) rfl rfl ?_ ?_
      · simp [State.enterClosing, hq]
      · simp [State.enterClosing]
  case rejoin p old new step hclosing =>
    refine ⟨hmail, fun q => ?_⟩
    by_cases hq : q = p
    · subst hq
      obtain ⟨-, -, hc, hd, htaken⟩ := hport q
      have hst : ((s.setSession q { s.session q with state := .closing new step }).session q).state =
          .closing new step := by rw [State.setSession_session_same]
      refine ⟨by simp, by simp, fun hm => ⟨State.isClosing_of_state hst, (hc hm).2⟩, fun hm => ?_,
        fun _ hrst hnot => htaken (State.isClosing_of_state hclosing) hrst hnot⟩
      have hstep := hd hm
      rw [hclosing] at hstep
      rw [hst]
      exact hstep
    · exact (hport q).congr (by rw [State.setSession_session_of_ne _ _ _ _ hq]) rfl rfl Iff.rfl Iff.rfl
  case enter p hdown =>
    refine ⟨hmail, fun q => ?_⟩
    by_cases hq : q = p
    · subst hq
      obtain ⟨-, -, hc, hd, -⟩ := hport q
      have hst : ((s.enterUp q).session q).state = .up := by rw [State.enterUp_session_same]
      have hup : (s.enterUp q).dirUp q = true := by simp [State.enterUp_dirUp]
      refine ⟨fun _ => hup, by simp [hst], fun hm => ?_, fun hm => ?_, ?_⟩
      · simpa [State.isClosing_of_down hdown] using (hc hm).1
      · simpa [hdown, SessionState.step?] using hd hm
      · simp [State.isClosing_of_up hst]
    · exact (hport q).congr (by rw [State.enterUp_session_of_ne _ hq]) (by simp [State.enterUp_dirUp, hq]) rfl
        Iff.rfl Iff.rfl
  case taken p rest hm =>
    rw [hm] at hmail
    refine ⟨hmail.tail, fun q => ?_⟩
    by_cases hq : q = p
    · subst hq
      obtain ⟨-, -, hc, hd, -⟩ := hport q
      have hclosing := (hc (by rw [hm]; exact List.mem_cons_self)).1
      obtain ⟨rejoin, step, hst⟩ := State.isClosing_iff.mp hclosing
      have hup : ((s.setDirMail rest).setClosingTaken q true).dirUp q = false := by simp [State.setClosingTaken_dirUp]
      refine ⟨fun h => absurd (hst.symm.trans h) nofun, fun h => absurd (hst.symm.trans h) nofun, fun h => ?_,
        fun h => hd (by rw [hm]; exact List.mem_cons_of_mem _ h), fun _ _ _ => hup⟩
      exact absurd h (List.nodup_cons.mp hmail.1).1
    · refine (hport q).congr rfl (by simp [State.setClosingTaken_dirUp, hq]) rfl ?_ ?_
      · simp [hm, hq]
      · simp [hm]
  case jobGone p rejoin _ hclosing hgone =>
    obtain ⟨-, -, hc, hd, htaken⟩ := hport p
    have hnd : .dispose p ∉ s.dirMail := fun h => by
      have := hd h
      rw [hclosing] at this
      cases this
    refine ⟨hmail.append_dispose hnd, fun q => ?_⟩
    by_cases hq : q = p
    · subst hq
      have hst : (((s.setSession q { s.session q with state := .closing rejoin .awaitDisposal, jobGone := false }).setDirMail
          (s.dirMail ++ [.dispose q])).session q).state = .closing rejoin .awaitDisposal := by
        rw [State.setDirMail_session, State.setSession_session_same]
      refine ⟨by simp, by simp, fun hm => ⟨State.isClosing_of_state hst, (hc (by simpa using hm)).2⟩,
        fun _ => by rw [hst]; rfl, fun _ hrst hnot => ?_⟩
      exact htaken (State.isClosing_of_state hclosing) hrst (by simpa using hnot)
    · refine (hport q).congr (by rw [State.setDirMail_session, State.setSession_session_of_ne _ _ _ _ hq]) rfl rfl ?_ ?_
      · simp
      · simp [hq]
  case disposed p rest _ _ hm htaken =>
    rw [hm] at hmail
    refine ⟨hmail.tail, fun q => ?_⟩
    have hst : (((s.setDirMail rest).setSession p { s.session p with disposalDone := true }).session q).state =
        (s.session q).state := by
      rw [State.setSession_session]
      split
      · subst q; rfl
      · rfl
    by_cases hq : q = p
    · subst hq
      obtain ⟨hup, hdown, hc, hd, -⟩ := hport q
      refine ⟨fun h => hup (hst ▸ h), fun h => hdown (hst ▸ h), fun h => ?_, fun h => ?_, fun _ _ _ => htaken⟩
      · rw [State.isClosing_congr hst]
        exact hc (by rw [hm]; exact List.mem_cons_of_mem _ h)
      · exact absurd h (List.nodup_cons.mp hmail.1).1
    · refine (hport q).congr hst rfl rfl ?_ ?_
      · simp [hm]
      · simp [hm, hq]
  case complete p rejoin hrst hclosing hdone hsettled =>
    obtain ⟨-, -, -, -, hnc, hnd⟩ := State.closingSettled_iff.mp hsettled
    refine ⟨hmail, fun q => ?_⟩
    by_cases hq : q = p
    · subst hq
      obtain ⟨-, -, -, -, htaken⟩ := hport q
      have hst : ((s.setSession q { s.session q with state := .down, disposalDone := false }).session q).state = .down := by
        rw [State.setSession_session_same]
      refine ⟨by simp, fun _ => htaken (State.isClosing_of_state hclosing) hrst hnc, fun h => absurd h hnc,
        fun h => absurd h hnd, ?_⟩
      simp [State.isClosing_of_down hst]
    · exact (hport q).congr (by rw [State.setSession_session_of_ne _ _ _ _ hq]) rfl rfl Iff.rfl Iff.rfl

theorem exec_keeps_viewLegal (c : Instr) (s t : State) (h : exec c s = .next t) (hs : s.ViewLegal) : t.ViewLegal := by
  have hc := exec_changes h
  by_cases hses : Instr.IsSession c
  · exact (exec_sessionMoves h hses).keep SessionMove.keeps_viewLegal hs
  cases c <;> first | exact absurd trivial hses | unfold exec at h
  case rstAsserted =>
    cases h
    split
    · exact hs
    · rw [State.viewLegal_iff] at hs ⊢
      refine ⟨⟨List.nodup_nil, nofun⟩, fun p => ?_⟩
      obtain ⟨hup, hdown, -⟩ := hs.2 p
      refine ⟨fun h => hup ?_, fun h => hdown ?_, nofun, nofun, fun _ hrst => absurd hrst nofun⟩
      all_goals simpa [State.session, SessionRecord.abandoned] using h
  case rstRisingEdge qmode prst =>
    cases h
    split
    · rw [State.viewLegal_iff]
      refine ⟨⟨List.nodup_nil, nofun⟩, fun p => ?_⟩
      simp only [State.PortViewLegal, State.session, State.isClosing, State.dirUp, State.atRisingEdge, sel_mapAll]
      cases sel prst p <;> simp [SessionRecord.reset]
    · exact hs
  all_goals exact viewLegal_reads.keep hc rfl hs

end Sys2Proof.Machine
end

section
/-! SUPPORT. The grants of closed ports and the inboxes: what each move of the directory and each closing leaves of them. -/

namespace Sys2Proof.Machine

/-! ## The grants (R6, R8, R26, R47) -/

/-- The record names a port neither as reader, heir or reserver nor as party of its offer. -/
def FrameRecord.Spares (r : FrameRecord) (q : Port) : Prop :=
  sel r.readers q = false ∧ r.fallback ≠ some q ∧ r.reservation ≠ some q ∧
    ∀ o ∈ r.offer, o.recipient ≠ q ∧ o.offerer ≠ q

theorem State.grantsLegal_iff {s : State} : s.GrantsLegal ↔ ∀ f q, s.dirUp q = false → (s.frame f).Spares q := Iff.rfl

/-- A state whose records are the same and whose ports are UP in the directory's view at least where they were. -/
theorem State.GrantsLegal.mono {s t : State} (hs : s.GrantsLegal) (hframe : ∀ f q, (s.frame f).Spares q → (t.frame f).Spares q)
    (hup : ∀ q, t.dirUp q = false → s.dirUp q = false) : t.GrantsLegal := fun f q hq => hframe f q (hs f q (hup q hq))

/-- The parts of the records that grants stand in. -/
def grantParts : List Part := [.frame .readers, .frame .fallback, .frame .reservation, .frame .offer]

theorem FrameRecord.spares_of_same {s t : State} (h : ∀ x ∈ grantParts, x.Same s t) (f : Frame) (q : Port)
    (hs : (s.frame f).Spares q) : (t.frame f).Spares q := by
  have hreaders : (t.frame f).readers = (s.frame f).readers := h (.frame .readers) (by decide) f
  have hfallback : (t.frame f).fallback = (s.frame f).fallback := h (.frame .fallback) (by decide) f
  have hoffer : (t.frame f).offer = (s.frame f).offer := h (.frame .offer) (by decide) f
  have hres : (t.frame f).reservation = (s.frame f).reservation := h (.frame .reservation) (by decide) f
  rw [FrameRecord.Spares, hreaders, hfallback, hoffer, hres]
  exact hs

theorem grantsLegal_reads : ReadsOnly State.GrantsLegal (.closingTaken :: grantParts) := fun s t h hs => by
  have htaken : t.closingTaken = s.closingTaken := h .closingTaken (by decide)
  refine hs.mono (FrameRecord.spares_of_same fun x hx => h x (List.mem_cons_of_mem _ hx)) fun q hq => ?_
  rwa [State.dirUp, htaken] at hq

theorem State.GrantsLegal.setFrame {s : State} (hs : s.GrantsLegal) {f : Frame} {r : FrameRecord}
    (h : ∀ q, s.dirUp q = false → (s.frame f).Spares q → r.Spares q) : (s.setFrame f r).GrantsLegal := fun g q hq => by
  have hg := hs g q hq
  rw [State.setFrame_frame]
  split
  · subst g
    exact h q hq hg
  · exact hg

theorem FrameRecord.spares_passed {r : FrameRecord} {q : Port} (h : r.Spares q) (p : Port) : (r.passed p).Spares q := by
  obtain ⟨-, -, hres, -⟩ := h
  exact ⟨by simp [FrameRecord.passed, noReaders], nofun, hres, nofun⟩

theorem FrameRecord.spares_givenUp {r : FrameRecord} {q : Port} (h : r.Spares q) : r.givenUp.Spares q := by
  obtain ⟨-, -, hres, -⟩ := h
  exact ⟨by simp [FrameRecord.givenUp, noReaders], nofun, hres, nofun⟩

theorem State.GrantsLegal.sendToScrub {s : State} (hs : s.GrantsLegal) (f : Frame) : (s.sendToScrub f).GrantsLegal :=
  grantsLegal_reads.keep (State.setScrubQueue_changes _ _) rfl (hs.setFrame fun _ _ h => FrameRecord.spares_givenUp h)

/-- An UP port is UP in the directory's view (R10). -/
def State.UpSeen (s : State) : Prop := ∀ p, s.isUp p = true → s.dirUp p = true

theorem State.ViewLegal.upSeen {s : State} (hs : s.ViewLegal) : s.UpSeen := fun p hup =>
  ((State.viewLegal_iff.mp hs).2 p).1 (State.isUp_iff.mp hup)

theorem upSeen_reads : ReadsOnly State.UpSeen [.session .state, .closingTaken] := fun s t h hs p hup => by
  have htaken : t.closingTaken = s.closingTaken := h .closingTaken (by decide)
  have hst : (t.session p).state = (s.session p).state := h (.session .state) (by decide) p
  rw [State.isUp_iff, hst] at hup
  rw [State.dirUp, htaken]
  exact hs p (State.isUp_iff.mpr hup)

theorem DirectoryMove.keeps_upSeen {closed : Port → Prop} (s t : State) (h : DirectoryMove closed s t) (hs : s.UpSeen) :
    t.UpSeen := upSeen_reads.keep h.changes rfl hs

theorem State.ne_of_dirUp {s : State} {p q : Port} (hp : s.dirUp p = true) (hq : s.dirUp q = false) : p ≠ q := by
  rintro rfl
  rw [hp] at hq
  cases hq

theorem DirectoryMove.keeps_grantsLegal {closed : Port → Prop} (s t : State) (h : DirectoryMove closed s t)
    (hup : s.UpSeen) (hs : s.GrantsLegal) : t.GrantsLegal := by
  cases h
  case other h => exact grantsLegal_reads.keep h rfl hs
  case grant f p _ _ _ => exact hs.setFrame fun _ _ h => h
  case reserve f p _ _ hp _ =>
    refine hs.setFrame fun q hq h => ⟨h.1, h.2.1, ?_, h.2.2.2⟩
    simpa using State.ne_of_dirUp (hup p hp) hq
  case release f p _ _ _ => exact hs.sendToScrub f
  case giveUp f p _ _ => exact hs.sendToScrub f
  case heir f p x _ hh =>
    refine hs.setFrame fun q hq h => ⟨h.1, fun hx => ?_, h.2.2⟩
    exact State.ne_of_dirUp (hh q hx).2 hq rfl
  case lend f p x _ _ hx =>
    refine hs.setFrame fun q hq h => ⟨?_, h.2⟩
    simp only [sel_put_of_ne _ _ _ _ (State.ne_of_dirUp hx hq).symm, h.1]
  case unlend f x =>
    refine hs.setFrame fun q hq h => ⟨?_, h.2⟩
    by_cases he : q = x
    · subst he; simp
    · simp only [sel_put_of_ne _ _ _ _ he, h.1]
  case offer o _ _ _ hfrom hto _ _ _ =>
    refine grantsLegal_reads.keep (State.setInbox_changes ..) rfl (hs.setFrame fun q hq h => ⟨h.1, h.2.1, h.2.2.1, ?_⟩)
    intro o' ho'
    cases ho'
    exact ⟨State.ne_of_dirUp hto hq, State.ne_of_dirUp (hup _ hfrom) hq⟩
  case endOffer f =>
    cases ho : (s.frame f).offer with
    | none => rwa [State.endOffer_none ho]
    | some o =>
      rw [State.endOffer_some ho]
      exact grantsLegal_reads.keep (State.setInbox_changes ..) rfl
        (hs.setFrame fun q _ h => ⟨h.1, h.2.1, h.2.2.1, nofun⟩)
  case lower f o ho _ =>
    refine hs.setFrame fun q hq h => ⟨h.1, h.2.1, h.2.2.1, fun o' ho' => ?_⟩
    cases ho'
    exact h.2.2.2 o ho
  case accept f p o _ _ _ =>
    exact grantsLegal_reads.keep (State.setInbox_changes ..) rfl
      (hs.setFrame fun _ _ h => FrameRecord.spares_passed h p)
  case inherit f p x _ _ _ _ _ => exact hs.setFrame fun _ _ h => FrameRecord.spares_passed h x

theorem DirectoryMoves.keeps_grantsLegal {closed : Port → Prop} {s t : State} (h : DirectoryMoves closed s t)
    (hup : s.UpSeen) (hs : s.GrantsLegal) : t.GrantsLegal :=
  (h.keep (P := fun s => s.UpSeen ∧ s.GrantsLegal)
    (fun s t h hs => ⟨h.keeps_upSeen s t hs.1, h.keeps_grantsLegal s t hs.1 hs.2⟩) ⟨hup, hs⟩).2

theorem FrameRecord.spares_withoutPort {r : FrameRecord} {p q : Port} (h : q ≠ p → r.Spares q)
    (hoffer : ∀ o ∈ r.offer, o.recipient ≠ q ∧ o.offerer ≠ q) : (r.withoutPort p).Spares q := by
  refine ⟨?_, fun hx => ?_, fun hx => ?_, hoffer⟩
  · by_cases hq : q = p
    · subst hq; simp [FrameRecord.withoutPort]
    · simp only [FrameRecord.withoutPort, sel_put_of_ne _ _ _ _ hq, (h hq).1]
  · obtain ⟨hx, hq⟩ := Option.mem_filter_iff.mp hx
    exact (h (by simpa using hq)).2.1 hx
  · obtain ⟨hx, hq⟩ := Option.mem_filter_iff.mp hx
    exact (h (by simpa using hq)).2.2.1 hx

theorem State.closeGrants_frame (s : State) (p : Port) (f : Frame) :
    (s.closeGrants p).frame f = (s.frame f).withoutPort p := by
  simp only [State.closeGrants, State.frame, State.setFrames, State.setClosingTaken_frames, sel_mapAll]

/-- A closing at the directory leaves nothing that names the port (R26, R67, R68). -/
theorem State.GrantsLegal.closeAtDirectory {s : State} (hs : s.GrantsLegal) (hi : s.InboxesLegal) (p : Port) :
    (s.closeAtDirectory p).GrantsLegal := by
  rw [State.closeAtDirectory_eq]
  refine grantsLegal_reads.keep (State.handOver_changes ..) rfl fun f q hq => ?_
  have hi' : (s.closeGrants p).InboxesLegal := fun x => by
    have hx := hi x
    simp only [State.closeGrants_frame, State.isUrgent] at hx ⊢
    exact hx
  have htaken : ((s.closeGrants p).settleOffers p).1.dirUp q = (s.closeGrants p).dirUp q :=
    congrArg (fun v => !sel v q) ((State.settleOffers_changes (s.closeGrants p) p).same .closingTaken rfl)
  have hq' : q ≠ p → s.dirUp q = false := fun hne => by
    have := htaken.symm.trans hq
    rwa [State.closeGrants, State.setClosingTaken_dirUp, if_neg hne] at this
  show FrameRecord.Spares _ _
  rw [State.settleOffers_frame hi', State.closeGrants_frame]
  split
  · obtain ⟨hr, hfb, hres, -⟩ := FrameRecord.spares_withoutPort (r := { s.frame f with offer := none }) (p := p) (q := q)
      (fun hne => ⟨(hs f q (hq' hne)).1, (hs f q (hq' hne)).2.1, (hs f q (hq' hne)).2.2.1, nofun⟩) nofun
    exact ⟨hr, hfb, hres, nofun⟩
  · rename_i hnot
    refine FrameRecord.spares_withoutPort (fun hne => hs f q (hq' hne)) fun o ho => ?_
    by_cases hne : q = p
    · subst hne
      have ho' : (s.frame f).offer = some o := ho
      simp only [FrameRecord.withoutPort, ho', Option.any_some, Offer.names, Bool.or_eq_true, beq_iff_eq, not_or] at hnot
      exact ⟨hnot.2, hnot.1⟩
    · exact (hs f q (hq' hne)).2.2.2 o ho

/-- Scrub done names no port that the record did not name before (R38). -/
theorem State.GrantsLegal.reportScrubbed {s : State} (hs : s.GrantsLegal) (f : Frame) :
    (s.reportScrubbed f).GrantsLegal := by
  unfold State.reportScrubbed
  split
  · exact hs.setFrame fun _ _ _ => ⟨by simp [FrameRecord.scrubbedFree, noReaders], nofun, nofun, nofun⟩
  · refine grantsLegal_reads.keep (State.handOver_changes ..) rfl (hs.setFrame fun _ _ _ => ?_)
    exact ⟨by simp [FrameRecord.scrubbedFor, FrameRecord.scrubbedFree, FrameRecord.granted, noReaders], nofun, nofun,
      nofun⟩

/-- A move of the sessions beside the directory's own can only bring a port back into its view. -/
theorem State.GrantsLegal.enterUp {s : State} (hs : s.GrantsLegal) (p : Port) : (s.enterUp p).GrantsLegal := by
  refine hs.mono (fun f q h => h) fun q hq => ?_
  rw [State.enterUp_dirUp] at hq
  split at hq
  · cases hq
  · exact hq

end Sys2Proof.Machine
end

section
/-! SUPPORT. The inboxes and the scrub queue: what each move of the directory leaves of them. -/

namespace Sys2Proof.Machine

/-! ## The inboxes (R47, R48) -/

theorem inboxesLegal_reads : ReadsOnly State.InboxesLegal [.inboxes, .frame .offer] := fun s t h hs p => by
  have hbox : t.inboxes = s.inboxes := h .inboxes (by decide)
  have hoffer : ∀ f, (t.frame f).offer = (s.frame f).offer := h (.frame .offer) (by decide)
  have hinbox : t.inbox p = s.inbox p := by simp only [State.inbox, hbox]
  simp only [hinbox, hoffer, State.isUrgent]
  exact hs p

/-- The inboxes read of a record only its offer's recipient and class. -/
theorem State.InboxesLegal.setOffer {s : State} (hs : s.InboxesLegal) {f : Frame} {r : FrameRecord}
    (hto : ∀ p, r.offer.any (fun o => o.recipient == p) = (s.frame f).offer.any fun o => o.recipient == p)
    (hcls : r.offer.any (fun o => o.cls == .urgent) = s.isUrgent f) : (s.setFrame f r).InboxesLegal := fun p => by
  have hmem : ∀ g, ((s.setFrame f r).frame g).offer.any (fun o => o.recipient == p) =
      (s.frame g).offer.any fun o => o.recipient == p := fun g => by
    rw [State.setFrame_frame]
    split
    · subst g; exact hto p
    · rfl
  have hurgent : ∀ g, (s.setFrame f r).isUrgent g = s.isUrgent g := fun g => by
    rw [State.isUrgent, State.setFrame_frame]
    split
    · subst g; exact hcls
    · rfl
  obtain ⟨hnodup, hlen, hin, hpair⟩ := hs p
  refine ⟨hnodup, hlen, fun g => ?_, hpair.imp fun {g g'} h => ?_⟩
  · rw [hmem]; exact hin g
  · rw [hurgent, hurgent]; exact h

theorem State.InboxesLegal.setFrame {s : State} (hs : s.InboxesLegal) {f : Frame} {r : FrameRecord}
    (h : r.offer = (s.frame f).offer) : (s.setFrame f r).InboxesLegal :=
  hs.setOffer (fun _ => by rw [h]) (by rw [h]; rfl)

/-- One frame's offer goes, from its record and from its inbox. -/
theorem State.InboxesLegal.remove {s t : State} (hs : s.InboxesLegal) {f : Frame}
    (hinbox : ∀ p, t.inbox p = (s.inbox p).filter fun g => g != f)
    (hoffer : ∀ g, (t.frame g).offer = if g = f then none else (s.frame g).offer) : t.InboxesLegal := fun p => by
  obtain ⟨hnodup, hlen, hin, hpair⟩ := hs p
  rw [hinbox]
  refine ⟨hnodup.filter _, (List.length_filter_le ..).trans hlen, fun g => ?_, ?_⟩
  · rw [List.mem_filter, hin, hoffer, bne_iff_ne]
    split <;> simp_all
  · refine (hpair.filter fun g => g != f).imp_of_mem fun {g g'} hg hg' h => ?_
    have hne : g ≠ f := by simpa using (List.mem_filter.mp hg).2
    have hne' : g' ≠ f := by simpa using (List.mem_filter.mp hg').2
    simp only [State.isUrgent, hoffer, if_neg hne, if_neg hne'] at h ⊢
    exact h

theorem State.InboxesLegal.endOffer {s : State} (hs : s.InboxesLegal) (hf : s.FramesLegal) (f : Frame) :
    (s.endOffer f).InboxesLegal := by
  cases ho : (s.frame f).offer with
  | none => rwa [State.endOffer_none ho]
  | some o =>
    refine hs.remove (State.OffersPlaced.endOffer_inbox (.of_legal hf hs) f) fun g => ?_
    rw [State.endOffer_frame ho]
    split <;> rfl

/-! ### A new offer (R48) -/

/-- Where the inbox stands URGENT first, a new offer's place keeps it so. -/
theorem placeInInbox_cases (urgent : Frame → Bool) (l : List Frame) (f : Frame) (c : OfferClass)
    (hpair : l.Pairwise fun g h => urgent h = true → urgent g = true) :
    ∃ l₁ l₂, l = l₁ ++ l₂ ∧ placeInInbox urgent l f c = l₁ ++ f :: l₂ ∧
      (c = .urgent → (∀ g ∈ l₁, urgent g = true) ∧ ∀ g ∈ l₂, urgent g = false) ∧ (c = .normal → l₂ = []) := by
  cases c with
  | normal => exact ⟨l, [], by simp, rfl, nofun, fun _ => rfl⟩
  | urgent =>
    refine ⟨l.takeWhile urgent, l.dropWhile urgent, List.takeWhile_append_dropWhile.symm, rfl, fun _ => ⟨fun g hg => ?_,
      ?_⟩, nofun⟩
    · exact (List.mem_takeWhile_imp hg)
    · clear f
      induction l with
      | nil => exact nofun
      | cons x l ih =>
        obtain ⟨hx, hl⟩ := List.pairwise_cons.mp hpair
        cases hux : urgent x with
        | true => rw [List.dropWhile_cons_of_pos hux]; exact ih hl
        | false =>
          rw [List.dropWhile_cons_of_neg (by simp [hux])]
          refine List.forall_mem_cons.mpr ⟨hux, fun g hg => ?_⟩
          by_contra hne
          simp [hux] at hx
          exact hne (hx g hg)

/-- A frame without an offer is put on offer. -/
theorem State.InboxesLegal.makeOffer {s : State} (hs : s.InboxesLegal) {o : Offer}
    (hnone : (s.frame o.frame).offer = none) (hroom : (s.inbox o.recipient).length < 8) :
    (s.makeOffer o).InboxesLegal := by
  obtain ⟨hnodup, -, -, hpair⟩ := hs o.recipient
  obtain ⟨l₁, l₂, hl, hplace, hurgent, hnormal⟩ := placeInInbox_cases s.isUrgent _ o.frame o.cls hpair
  have hnotin : ∀ p, o.frame ∉ s.inbox p := fun p h => by
    have := ((hs p).2.2.1 o.frame).mp h
    simp [hnone] at this
  have hframe : ∀ g, ((s.makeOffer o).frame g).offer = if g = o.frame then some o else (s.frame g).offer := fun g => by
    simp only [State.makeOffer, State.setInbox_frame, State.setFrame_frame]
    split <;> rfl
  have hurg : ∀ g, (s.makeOffer o).isUrgent g = if g = o.frame then o.cls == .urgent else s.isUrgent g := fun g => by
    simp only [State.isUrgent, hframe]
    split <;> rfl
  have hkeep (p : Port) (h : (s.inbox p).Pairwise fun g h => s.isUrgent h = true → s.isUrgent g = true) :
      (s.inbox p).Pairwise fun g h => (s.makeOffer o).isUrgent h = true → (s.makeOffer o).isUrgent g = true := by
    refine h.imp_of_mem fun {g g'} hg hg' h => ?_
    have hne : g ≠ o.frame := fun he => hnotin p (he ▸ hg)
    have hne' : g' ≠ o.frame := fun he => hnotin p (he ▸ hg')
    rw [hurg, hurg, if_neg hne, if_neg hne']
    exact h
  intro p
  by_cases hp : p = o.recipient
  · subst hp
    have hin : (s.makeOffer o).inbox o.recipient = l₁ ++ o.frame :: l₂ :=
      (State.setInbox_inbox_same ..).trans hplace
    have hperm : (l₁ ++ o.frame :: l₂).Perm (o.frame :: s.inbox o.recipient) := by
      rw [hl]; exact List.perm_middle
    have hpair' := hkeep o.recipient hpair
    rw [hin]
    refine ⟨hperm.nodup_iff.mpr (List.nodup_cons.mpr ⟨hnotin _, hnodup⟩), ?_, fun g => ?_, ?_⟩
    · rw [hperm.length_eq, List.length_cons]; omega
    · rw [hperm.mem_iff, List.mem_cons, (hs _).2.2.1 g, hframe]
      split <;> simp_all
    · rw [hl] at hpair'
      obtain ⟨h₁, h₂, h₁₂⟩ := List.pairwise_append.mp hpair'
      have hself : (s.makeOffer o).isUrgent o.frame = (o.cls == .urgent) := by rw [hurg, if_pos rfl]
      have hold : ∀ g ∈ s.inbox o.recipient, (s.makeOffer o).isUrgent g = s.isUrgent g := fun g hg => by
        rw [hurg, if_neg fun he => hnotin _ (he ▸ hg)]
      rw [hl] at hold
      refine List.pairwise_append.mpr ⟨h₁, List.pairwise_cons.mpr ⟨fun g hg hu => ?_, h₂⟩, fun g hg g' hg' hu => ?_⟩
      · rw [hold g (List.mem_append_right _ hg)] at hu
        cases hcls : o.cls with
        | urgent => rw [hself, hcls]; rfl
        | normal => rw [hnormal hcls] at hg; cases hg
      · rcases List.mem_cons.mp hg' with rfl | hg'
        · rw [hself, beq_iff_eq] at hu
          rw [hold g (List.mem_append_left _ hg)]
          exact (hurgent hu).1 g hg
        · exact h₁₂ g hg g' hg' hu
  · have hin : (s.makeOffer o).inbox p = s.inbox p := State.setInbox_inbox_of_ne _ _ _ _ hp
    obtain ⟨hnodup, hlen, hmem, hpair⟩ := hs p
    rw [hin]
    refine ⟨hnodup, hlen, fun g => ?_, hkeep p hpair⟩
    rw [hmem g, hframe]
    split
    · subst g
      simp [hnone, Ne.symm hp]
    · rfl

/-- A closed port's frame is on no offer. -/
theorem State.offer_none_of_closed {s : State} {f : Frame} {p : Port} (hf : s.FramesLegal) (hg : s.GrantsLegal)
    (howner : (s.frame f).owner = some p) (hup : s.dirUp p = false) : (s.frame f).offer = none := by
  by_contra hne
  obtain ⟨o, ho⟩ := Option.ne_none_iff_exists'.mp hne
  have hparty := (hg f p hup).2.2.2 o ho
  have hfrom := ((hf f).2.2.1 o ho).2.1
  rw [howner] at hfrom
  exact hparty.2 (Option.some.inj hfrom).symm

theorem DirectoryMove.keeps_inboxesLegal {closed : Port → Prop} (s t : State) (h : DirectoryMove closed s t)
    (hclosed : ∀ p f, closed p → (s.frame f).owner = some p → (s.frame f).offer = none) (hf : s.FramesLegal)
    (hs : s.InboxesLegal) : t.InboxesLegal := by
  have gone {f : Frame} (ho : (s.frame f).offer = none) {r : FrameRecord} (hr : r.offer = none) :
      (s.setFrame f r).InboxesLegal := hs.setFrame (hr.trans ho.symm)
  cases h
  case other h => exact inboxesLegal_reads.keep h rfl hs
  case release f p _ hne _ =>
    exact inboxesLegal_reads.keep (State.setScrubQueue_changes _ _) rfl (gone ((hf f).offer_of_ne hne) rfl)
  case giveUp f p hc howner =>
    exact inboxesLegal_reads.keep (State.setScrubQueue_changes _ _) rfl
      (gone (hclosed p f hc howner) rfl)
  case inherit f p q hc howner _ _ _ => exact gone (hclosed p f hc howner) rfl
  case offer o _ hne _ _ _ _ hroom _ => exact hs.makeOffer ((hf o.frame).offer_of_ne hne) hroom
  case endOffer f => exact hs.endOffer hf f
  case lower f o ho _ => exact hs.setOffer (by simp [ho]) (by simp [State.isUrgent, ho])
  case accept f p o hi _ _ =>
    obtain ⟨-, ho, -⟩ := State.inboxOffer_eq_some_iff.mp hi
    have hbox := State.OffersPlaced.endOffer_inbox (.of_legal hf hs) f
    rw [State.endOffer_some ho] at hbox
    refine hs.remove hbox fun g => ?_
    simp only [State.leaveInbox, State.setInbox_frame, State.setFrame_frame]
    split <;> rfl
  all_goals exact hs.setFrame rfl

/-! ## The scrub queue (R31 to R35) -/

theorem scrubLegal_reads :
    ReadsOnly State.ScrubLegal [.scrubQueue, .scrubPhase, .frame .state, .frame .mark, .rstLow] := fun s t h hs => by
  have hq : t.scrub.queue = s.scrub.queue := h .scrubQueue (by decide)
  obtain ⟨hphase, hpieces⟩ := h .scrubPhase (by decide)
  have hst : ∀ f, (t.frame f).state = (s.frame f).state := h (.frame .state) (by decide)
  have hmark : ∀ f, (t.frame f).mark = (s.frame f).mark := h (.frame .mark) (by decide)
  have hrst : t.rstLow = s.rstLow := h .rstLow (by decide)
  simp only [State.ScrubLegal, hq, hphase, hpieces, hst, hmark, hrst]
  exact hs

/-- A frame that is not SCRUBBING before and after. -/
theorem State.ScrubLegal.setFrame {s : State} (hs : s.ScrubLegal) {f : Frame} {r : FrameRecord}
    (hst : r.state = .scrubbing ↔ (s.frame f).state = .scrubbing) (hmark : r.mark = (s.frame f).mark) :
    (s.setFrame f r).ScrubLegal := by
  have hstate : ∀ g, ((s.setFrame f r).frame g).state = .scrubbing ↔ (s.frame g).state = .scrubbing := fun g => by
    rw [State.setFrame_frame]
    split
    · subst g; exact hst
    · rfl
  have hmarks : ∀ g, ((s.setFrame f r).frame g).mark = (s.frame g).mark := fun g => by
    rw [State.setFrame_frame]
    split
    · subst g; exact hmark
    · rfl
  simp only [State.ScrubLegal, State.setFrame_scrub, State.setFrame_rstLow, hstate, hmarks]
  exact hs

theorem State.ScrubLegal.sendToScrub {s : State} (hs : s.ScrubLegal) {f : Frame}
    (hst : (s.frame f).state ≠ .scrubbing) : (s.sendToScrub f).ScrubLegal := by
  obtain ⟨hnodup, hmem, hphase, hidle, hzero, hreport, hhead⟩ := hs
  have hnotin : f ∉ s.scrub.queue := fun h => hst ((hmem f).mp h)
  have hframe : ∀ g, (s.sendToScrub f).frame g = if g = f then (s.frame f).givenUp else s.frame g := fun g =>
    State.setFrame_frame s f _ g
  refine ⟨List.nodup_append.mpr ⟨hnodup, List.nodup_singleton f, ?_⟩, fun g => ?_, .inr ?_, hidle, hzero, hreport, ?_⟩
  · rintro g hg _ hf rfl
    exact hnotin (List.mem_singleton.mp hf ▸ hg)
  · rw [hframe]
    show g ∈ s.scrub.queue ++ [f] ↔ _
    rw [List.mem_append, List.mem_singleton, hmem]
    split
    · simp [FrameRecord.givenUp, *]
    · simp [*]
  · exact List.append_ne_nil_of_right_ne_nil _ (List.cons_ne_nil _ _)
  · intro g hg
    have hmark : ((s.sendToScrub f).frame g).mark = (s.frame g).mark := by
      rw [hframe]
      split
      · subst g; rfl
      · rfl
    rw [hmark]
    have hg' : g ∈ (s.scrub.queue ++ [f]).head? := hg
    cases hq : s.scrub.queue with
    | nil =>
      have hi : s.scrub.phase = .idle := by simpa [hq] using hphase
      exact ⟨fun h => absurd (hi.symm.trans h) nofun, fun h => by rcases h with h | h <;> exact absurd (hi.symm.trans h) nofun⟩
    | cons x l =>
      rw [hq] at hg'
      exact hhead g (by rw [hq]; exact hg')

theorem DirectoryMove.keeps_scrubLegal {closed : Port → Prop} (s t : State) (h : DirectoryMove closed s t)
    (hf : s.FramesLegal) (hs : s.ScrubLegal) : t.ScrubLegal := by
  cases h
  case other h => exact scrubLegal_reads.keep h rfl hs
  case grant f p hfree _ _ => exact hs.setFrame (by simp [FrameRecord.granted, hfree]) rfl
  case release f p howner _ _ => exact hs.sendToScrub ((hf f).of_owner howner).2.1
  case giveUp f p _ howner => exact hs.sendToScrub ((hf f).of_owner howner).2.1
  case inherit f p q _ howner _ _ _ =>
    exact hs.setFrame (by simp [FrameRecord.passed, FrameRecord.granted, ((hf f).of_owner howner).2.1]) rfl
  case offer o howner _ _ _ _ _ _ _ =>
    exact scrubLegal_reads.keep (State.setInbox_changes ..) rfl
      (hs.setFrame (by simp [((hf o.frame).of_owner howner).2.1]) rfl)
  case endOffer f =>
    cases ho : (s.frame f).offer with
    | none => rwa [State.endOffer_none ho]
    | some o =>
      have howner := ((hf f).2.2.1 o ho).2.1
      rw [State.endOffer_some ho]
      exact scrubLegal_reads.keep (State.setInbox_changes ..) rfl
        (hs.setFrame (by simp [((hf f).of_owner howner).2.1]) rfl)
  case accept f p o hi _ _ =>
    obtain ⟨-, ho, -⟩ := State.inboxOffer_eq_some_iff.mp hi
    have howner := ((hf f).2.2.1 o ho).2.1
    exact scrubLegal_reads.keep (State.setInbox_changes ..) rfl
      (hs.setFrame (by simp [FrameRecord.passed, FrameRecord.granted, ((hf f).of_owner howner).2.1]) rfl)
  all_goals exact hs.setFrame Iff.rfl rfl

end Sys2Proof.Machine
end

section
/-! SUPPORT. Every command keeps the directory's tables in agreement. -/

namespace Sys2Proof.Machine

/-! ## Rows of moves -/

/-- What a row of moves keeps of the directory's tables: the records, the grants, the inboxes and the scrub queue. -/
structure State.TablesLegal (closed : Port → Prop) (s : State) : Prop where
  upSeen : s.UpSeen
  down : ∀ p, closed p → s.dirUp p = false
  frames : s.FramesLegal
  grants : s.GrantsLegal
  inboxes : s.InboxesLegal
  scrub : s.ScrubLegal

theorem DirectoryMove.keeps_tablesLegal {closed : Port → Prop} (s t : State) (h : DirectoryMove closed s t)
    (hs : s.TablesLegal closed) : t.TablesLegal closed where
  upSeen := h.keeps_upSeen s t hs.upSeen
  down p hp := by
    have htaken : t.closingTaken = s.closingTaken := h.changes.same .closingTaken rfl
    rw [State.dirUp, htaken]
    exact hs.down p hp
  frames := h.keeps_framesLegal s t hs.frames
  grants := h.keeps_grantsLegal s t hs.upSeen hs.grants
  inboxes := h.keeps_inboxesLegal s t
    (fun p _ hp howner => State.offer_none_of_closed hs.frames hs.grants howner (hs.down p hp)) hs.frames hs.inboxes
  scrub := h.keeps_scrubLegal s t hs.frames hs.scrub

theorem DirectoryMoves.keeps_tablesLegal {closed : Port → Prop} {s t : State} (h : DirectoryMoves closed s t)
    (hs : s.TablesLegal closed) : t.TablesLegal closed := h.keep DirectoryMove.keeps_tablesLegal hs

/-- The parts that the directory's tables stand in. -/
def tableParts : List Part :=
  frameParts ++ [.inboxes, .closingTaken, .session .state, .scrubQueue, .scrubPhase, .frame .mark, .rstLow]

theorem tablesLegal_reads (closed : Port → Prop) : ReadsOnly (State.TablesLegal closed) tableParts := fun s t h hs =>
  have sub {l : List Part} (hl : l ⊆ tableParts) : ∀ x ∈ l, x.Same s t := fun x hx => h x (hl hx)
  { upSeen := upSeen_reads s t (sub (by decide)) hs.upSeen
    down := fun p hp => by
      have htaken : t.closingTaken = s.closingTaken := h .closingTaken (by decide)
      rw [State.dirUp, htaken]
      exact hs.down p hp
    frames := framesLegal_reads s t (sub (by decide)) hs.frames
    grants := grantsLegal_reads s t (sub (by decide)) hs.grants
    inboxes := inboxesLegal_reads s t (sub (by decide)) hs.inboxes
    scrub := scrubLegal_reads s t (sub (by decide)) hs.scrub }

/-! ## The closing of a port -/

/-- The offers that a closing settles leave the inboxes and the scrub queue legal. -/
theorem State.closeAtDirectory_inboxes_scrub {s : State} (hf : s.FramesLegal) (hi : s.InboxesLegal) (hsc : s.ScrubLegal)
    (p : Port) : (s.closeAtDirectory p).InboxesLegal ∧ (s.closeAtDirectory p).ScrubLegal := by
  rw [State.closeAtDirectory_eq]
  have hgrants := (s.withoutPort_changes p).trans (State.setClosingTaken_changes _ p true)
  have hi' : (s.closeGrants p).InboxesLegal := inboxesLegal_reads.keep hgrants rfl hi
  have hsc' : (s.closeGrants p).ScrubLegal := scrubLegal_reads.keep hgrants rfl hsc
  have hall := (State.settleOffers_moves (closed := fun _ => False) (s.closeGrants p) p).keep
    (P := fun s => s.FramesLegal ∧ s.InboxesLegal ∧ s.ScrubLegal)
    (fun s t h hs => ⟨h.keeps_framesLegal s t hs.1, h.keeps_inboxesLegal s t (fun _ _ hc => hc.elim) hs.1 hs.2.1,
      h.keeps_scrubLegal s t hs.1 hs.2.2⟩) ⟨State.closeGrants_framesLegal hf p, hi', hsc'⟩
  exact ⟨inboxesLegal_reads.keep (State.handOver_changes ..) rfl hall.2.1,
    scrubLegal_reads.keep (State.handOver_changes ..) rfl hall.2.2⟩

/-! ## The Scrub Engine -/

/-- The engine at the head of a legal queue. -/
theorem State.takeHead_scrubLegal {s : State} (hnodup : s.scrub.queue.Nodup)
    (hmem : ∀ f, f ∈ s.scrub.queue ↔ (s.frame f).state = .scrubbing) : s.takeHead.ScrubLegal := by
  unfold State.takeHead
  split
  · rename_i hq
    exact ⟨hnodup, hmem, .inl rfl, fun _ => rfl, nofun, nofun, fun f hf => by
      rw [State.setScrub_scrub] at hf
      simp only [hq] at hf
      cases hf⟩
  · rename_i f l hq
    have hne : s.scrub.queue ≠ [] := by rw [hq]; exact List.cons_ne_nil _ _
    have hhead : ∀ g ∈ s.scrub.queue.head?, g = f := fun g hg => by
      rw [hq] at hg
      exact (Option.some.inj hg).symm
    split
    · rename_i hmark
      refine ⟨hnodup, hmem, .inr hne, fun _ => rfl, nofun, nofun, fun g hg => ⟨fun _ _ => ?_, ?_⟩⟩
      · rw [hhead g hg]; exact hmark
      · rintro (h | h) <;> cases h
    · rename_i hmark
      refine ⟨hnodup, hmem, .inr hne, ?_, fun _ => (by decide : (0 : Nat) < 16), nofun, fun g hg => ⟨nofun, fun _ => ?_⟩⟩
      · rintro (h | h) <;> cases h
      · rw [hhead g hg]; exact (Bool.not_eq_true _).mp hmark

/-- A piece that ends: the head's mark stays off. -/
theorem State.ScrubLegal.afterPiece {s : State} (hs : s.ScrubLegal) (hzero : s.scrub.phase = .zeroing) :
    s.afterPiece.ScrubLegal := by
  obtain ⟨hnodup, hmem, hphase, -, -, -, hhead⟩ := hs
  have hne : s.scrub.queue ≠ [] := hphase.resolve_left (by rw [hzero]; nofun)
  have hoff : ∀ g ∈ s.scrub.queue.head?, (s.frame g).mark = false := fun g hg => (hhead g hg).2 (.inl hzero)
  unfold State.afterPiece
  split
  · rename_i hlt
    refine scrubLegal_reads.keep (State.present_changes ..) rfl
      ⟨hnodup, hmem, .inr hne, fun h => ?_, fun _ => hlt, fun h => ?_, fun g hg => ⟨fun h => ?_, fun _ => hoff g hg⟩⟩
    · rcases h with h | h <;> exact absurd (hzero.symm.trans h) nofun
    · exact absurd (hzero.symm.trans h) nofun
    · exact absurd (hzero.symm.trans h) nofun
  · refine ⟨hnodup, hmem, .inr hne, fun h => ?_, nofun, fun _ => rfl, fun g hg => ⟨nofun, fun _ => hoff g hg⟩⟩
    rcases h with h | h <;> cases h

theorem State.reportScrubbed_frame (s : State) (f : Frame) :
    ∃ r : FrameRecord, r.state ≠ .scrubbing ∧ r.offer = none ∧
      ∀ g, (s.reportScrubbed f).frame g = if g = f then r else s.frame g := by
  unfold State.reportScrubbed
  split
  · exact ⟨(s.frame f).scrubbedFree, by simp [FrameRecord.scrubbedFree], rfl, State.setFrame_frame s f _⟩
  · rename_i p _
    refine ⟨(s.frame f).scrubbedFor p, by simp [FrameRecord.scrubbedFor, FrameRecord.granted], rfl, fun g => ?_⟩
    obtain ⟨v, hv⟩ := (s.setFrame f ((s.frame f).scrubbedFor p)).handOver_rest .directory
      [(p, Event.claimGranted f ((s.frame f).generation + 1))]
    rw [hv]
    exact State.setFrame_frame s f _ g

/-- Scrub done: the frame leaves the head of the queue and is no longer SCRUBBING (R38). -/
theorem State.ScrubLegal.scrubDone {s : State} (hs : s.ScrubLegal) {f : Frame} {rest : List Frame}
    (hq : s.scrub.queue = f :: rest) :
    (((s.reportScrubbed f).setScrub { s.scrub with queue := rest }).takeHead).ScrubLegal := by
  obtain ⟨hnodup, hmem, -⟩ := hs
  obtain ⟨r, hr, -, hframe⟩ := s.reportScrubbed_frame f
  rw [hq] at hnodup hmem
  obtain ⟨hf, hrest⟩ := List.nodup_cons.mp hnodup
  refine State.takeHead_scrubLegal hrest fun g => ?_
  show g ∈ rest ↔ ((s.reportScrubbed f).frame g).state = .scrubbing
  rw [hframe]
  have hg := hmem g
  split
  · subst g
    simp [hf, hr]
  · rename_i hne
    rw [← hg, List.mem_cons]
    simp [hne]

/-- The marks of a segment that begins are not at the head of the scrub queue: its frames have an owner (R115). -/
theorem State.ScrubLegal.segmentBegin {s : State} (hs : s.ScrubLegal) (hf : s.FramesLegal) {j : Job}
    (hrights : s.rightsTest j = none) : (s.setMarks j true).ScrubLegal := by
  obtain ⟨hnodup, hmem, hphase, hidle, hzero, hreport, hhead⟩ := hs
  have howned : ∀ f, f = j.source ∨ f = j.dest → (s.frame f).owner ≠ none := by
    unfold State.rightsTest at hrights
    dsimp only at hrights
    split at hrights
    · cases hrights
    · rename_i hsource
      split at hrights
      · cases hrights
      · rename_i hdest
        rintro f (rfl | rfl) hnone
        · simp only [Bool.not_eq_true', decide_eq_false_iff_not, not_not] at hsource
          rcases hsource with hown | hread
          · rw [hnone] at hown; cases hown.1
          · have := ((hf j.source).2.2.2.1 _ hread).1
            rw [hnone] at this
            cases this
        · simp only [Bool.not_eq_true', decide_eq_false_iff_not, not_not] at hdest
          rw [hnone] at hdest
          cases hdest.1
  have hstate : ∀ f, ((s.setMarks j true).frame f).state = (s.frame f).state := fun f => by
    rw [State.setMarks_frame]; split <;> rfl
  refine ⟨hnodup, fun f => by rw [hstate]; exact hmem f, hphase, hidle, hzero, hreport, fun f hq => ?_⟩
  have hscrub : (s.frame f).state = .scrubbing := (hmem f).mp (List.mem_of_mem_head? hq)
  have hnot : ¬(f = j.source ∨ f = j.dest) := fun h => howned f h ((hf f).owner_of_scrubbing hscrub)
  rw [State.setMarks_frame, if_neg hnot]
  exact hhead f hq

/-- The marks of a segment that ends go, and a head that was HELD by one of them begins its scrub (R33, R34). -/
theorem State.ScrubLegal.segmentEnd {s t : State} {l : List Part} (hs : s.ScrubLegal) {j : Job}
    (h : (s.setMarks j false).Changes t l)
    (hl : partsApart [.scrubQueue, .scrubPhase, .frame .state, .frame .mark] l = true) : t.wakeHeld.ScrubLegal := by
  have same (x : Part) (hx : x ∈ [.scrubQueue, .scrubPhase, .frame .state, .frame .mark]) :
      x.Same (s.setMarks j false) t :=
    h.same_of_notMem x fun hm => by simpa [hm] using List.all_eq_true.mp hl x hx
  have hq : t.scrub.queue = s.scrub.queue := same .scrubQueue (by decide)
  obtain ⟨hphase', hpieces⟩ : t.scrub.phase = s.scrub.phase ∧ t.scrub.pieces = s.scrub.pieces := same .scrubPhase (by decide)
  have hstate : ∀ f, (t.frame f).state = (s.frame f).state := fun f => by
    rw [same (.frame .state) (by decide) f, State.setMarks_frame]
    split <;> rfl
  obtain ⟨hnodup, hmem, hphase, hidle, hzero, hreport, hhead⟩ := hs
  have hmem' : ∀ f, f ∈ t.scrub.queue ↔ (t.frame f).state = .scrubbing := fun f => by
    rw [hq, hstate]; exact hmem f
  unfold State.wakeHeld
  split
  · exact State.takeHead_scrubLegal (hq ▸ hnodup) hmem'
  · rename_i hne
    refine ⟨hq ▸ hnodup, hmem', ?_⟩
    rw [hphase'] at hne
    rw [hq, hphase', hpieces]
    refine ⟨hphase, hidle, hzero, hreport, fun f hf => ⟨fun h => absurd h hne, fun h => ?_⟩⟩
    rw [same (.frame .mark) (by decide) f, State.setMarks_frame]
    split
    · rfl
    · exact (hhead f hf).2 h

/-! ## Every command -/

theorem inboxes_scrub_reads : ReadsOnly (fun s => s.InboxesLegal ∧ s.ScrubLegal)
    ([.inboxes, .frame .offer] ++ [.scrubQueue, .scrubPhase, .frame .state, .frame .mark, .rstLow]) :=
  inboxesLegal_reads.and scrubLegal_reads

theorem State.DirectoryLegal.tables {s : State} (hs : s.DirectoryLegal) (closed : Port → Prop)
    (hdown : ∀ p, closed p → s.dirUp p = false) : s.TablesLegal closed := by
  obtain ⟨hf, -, hv, hg, hi, hsc⟩ := hs
  exact ⟨hv.upSeen, hdown, hf, hg, hi, hsc⟩

/-- A command keeps the grants, the inboxes and the scrub queue of a directory whose tables agree. -/
theorem exec_keeps_tables (c : Instr) (s t : State) (h : exec c s = .next t) (hs : s.DirectoryLegal) :
    t.GrantsLegal ∧ t.InboxesLegal ∧ t.ScrubLegal := by
  have hc := exec_changes h
  have htables := hs.tables (fun _ => False) fun _ hf => hf.elim
  obtain ⟨hf, hm, hv, hg, hi, hsc⟩ := hs
  have keeps {act : State → State} (hr : whileRunning s act = .next t)
      (hact : (act s).GrantsLegal ∧ (act s).InboxesLegal ∧ (act s).ScrubLegal) :
      t.GrantsLegal ∧ t.InboxesLegal ∧ t.ScrubLegal :=
    whileRunning_keeps (P := fun s => s.GrantsLegal ∧ s.InboxesLegal ∧ s.ScrubLegal) hr ⟨hg, hi, hsc⟩ fun _ => hact
  have keepScrub {act : State → State} (hr : whileRunning s act = .next t)
      (hl : partsApart (.closingTaken :: grantParts) (Instr.parts c) = true)
      (hl' : partsApart [.inboxes, .frame .offer] (Instr.parts c) = true) (hact : (act s).ScrubLegal) :
      t.GrantsLegal ∧ t.InboxesLegal ∧ t.ScrubLegal :=
    ⟨grantsLegal_reads.keep hc hl hg, inboxesLegal_reads.keep hc hl' hi,
      whileRunning_keeps (P := State.ScrubLegal) hr hsc fun _ => hact⟩
  by_cases hdir : Instr.IsDirectory c
  · have := (exec_moves h hdir).keeps_tablesLegal htables
    exact ⟨this.grants, this.inboxes, this.scrub⟩
  cases c <;> first | exact absurd trivial hdir | unfold exec at h
  case tick =>
    have hticked : (s.setTickCount 0).TablesLegal fun _ => False :=
      (tablesLegal_reads _).keep (s.setTickCount_changes 0) rfl htables
    refine whileRunning_keeps (P := fun s => s.GrantsLegal ∧ s.InboxesLegal ∧ s.ScrubLegal) h ⟨hg, hi, hsc⟩ fun hrst => ?_
    rw [State.awaitTick_refclk s hrst]
    have := (State.takeTick_moves (s.setTickCount 0)).keeps_tablesLegal hticked
    exact ⟨this.grants, this.inboxes, this.scrub⟩
  case directoryClosing p =>
    refine keeps h ?_
    split
    · rename_i rest _
      split
      · have hmail := s.setDirMail_changes rest
        exact ⟨(grantsLegal_reads.keep hmail rfl hg).closeAtDirectory (inboxesLegal_reads.keep hmail rfl hi) p,
          State.closeAtDirectory_inboxes_scrub (framesLegal_reads.keep hmail rfl hf)
            (inboxesLegal_reads.keep hmail rfl hi) (scrubLegal_reads.keep hmail rfl hsc) p⟩
      · exact ⟨hg, hi, hsc⟩
    · exact ⟨hg, hi, hsc⟩
  case disposal p =>
    refine keeps h ?_
    split
    · rename_i rest _
      split
      · rename_i hq
        obtain ⟨rfl, htaken⟩ := hq
        have hdown : (s.setDirMail rest).TablesLegal (· = _) :=
          (tablesLegal_reads _).keep (s.setDirMail_changes rest) rfl
            ⟨hv.upSeen, fun p hp => by rw [hp, State.dirUp, htaken]; rfl, hf, hg, hi, hsc⟩
        rw [State.disposeAll_eq]
        have := (State.disposeFrames_moves _ _).keeps_tablesLegal hdown
        have hdone := State.setDisposalDone_changes
        exact ⟨grantsLegal_reads.keep (hdone ..) rfl this.grants, inboxesLegal_reads.keep (hdone ..) rfl this.inboxes,
          scrubLegal_reads.keep (hdone ..) rfl this.scrub⟩
      · exact ⟨hg, hi, hsc⟩
    · exact ⟨hg, hi, hsc⟩
  case scrubDone =>
    refine keeps h ?_
    split
    · exact ⟨hg, hi, hsc⟩
    · rename_i f rest hq
      split
      · have hrest := (State.setScrub_changes (s.reportScrubbed f) { s.scrub with queue := rest }).trans
          (State.takeHead_changes _)
        obtain ⟨r, -, hr, hframe⟩ := s.reportScrubbed_frame f
        have hnone : (s.frame f).offer = none :=
          (hf f).offer_of_ne (by rw [(hsc.2.1 f).mp (by rw [hq]; exact List.mem_cons_self)]; nofun)
        refine ⟨grantsLegal_reads.keep hrest rfl (hg.reportScrubbed f), ?_, hsc.scrubDone hq⟩
        refine inboxesLegal_reads.keep hrest rfl (inboxesLegal_reads s _ (fun x hx => ?_) hi)
        rcases List.mem_pair.mp hx with rfl | rfl
        · exact (s.reportScrubbed_changes f).same .inboxes rfl
        · intro g
          show ((s.reportScrubbed f).frame g).offer = (s.frame g).offer
          rw [hframe]
          split
          · subst g; rw [hr, hnone]
          · rfl
      · exact ⟨hg, hi, hsc⟩
  case prstReleased p =>
    refine keeps h ?_
    have hother := inboxes_scrub_reads.keep ((s.setPrst_changes p false).trans (State.releasePrst_changes _ p)) rfl ⟨hi, hsc⟩
    split
    · refine ⟨?_, hother⟩
      unfold State.releasePrst
      split
      · exact State.GrantsLegal.enterUp (grantsLegal_reads.keep (s.setPrst_changes p false) rfl hg) p
      · exact grantsLegal_reads.keep ((s.setPrst_changes p false).trans (State.setSessionState_changes ..)) rfl hg
      · exact grantsLegal_reads.keep (s.setPrst_changes p false) rfl hg
    · exact ⟨hg, hi, hsc⟩
  case disposalDone p =>
    refine ⟨?_, inboxes_scrub_reads.keep hc rfl ⟨hi, hsc⟩⟩
    refine whileRunning_keeps (P := State.GrantsLegal) h hg fun _ => ?_
    split
    · split
      · have hdown : (s.setSession p { s.session p with state := .down, disposalDone := false }).GrantsLegal := hg
        dsimp only
        split
        · exact hdown.enterUp p
        · exact hdown
      · exact hg
    · exact hg
  case scrubStart =>
    refine keepScrub h rfl rfl ?_
    split
    · exact State.takeHead_scrubLegal hsc.1 hsc.2.1
    · exact hsc
  case pieceEnd =>
    refine keepScrub h rfl rfl ?_
    split
    · exact hsc
    · split
      · rename_i hzero
        generalize Memory.writeBytes s.mem _ pieceZeros = m
        exact State.ScrubLegal.afterPiece (scrubLegal_reads.keep ((s.setMem_changes m).trans (State.endGrant_changes _)) rfl hsc)
          hzero.1
      · exact hsc
  case segmentBegin =>
    refine keepScrub h rfl rfl ?_
    split
    · split
      · split
        · exact scrubLegal_reads.keep ((s.finishJob_changes _).trans (State.endGrant_changes _)) rfl hsc
        · split
          · exact scrubLegal_reads.keep (State.setEngine_changes ..) rfl (hsc.segmentBegin hf ‹_›)
          · exact scrubLegal_reads.keep (s.endGrant_changes.trans (State.request_changes ..)) rfl hsc
      · exact hsc
    · exact hsc
  case segmentEnd =>
    refine keepScrub h rfl rfl ?_
    split
    · rename_i j he
      split
      · exact (scrubLegal_reads.keep (s.setMem_changes _) rfl hsc).segmentEnd
          ((State.endGrant_changes _).trans (State.afterSegment_changes ..)) rfl
      · exact hsc
    · exact hsc
  case rstAsserted =>
    refine ⟨grantsLegal_reads.keep hc rfl hg, inboxesLegal_reads.keep hc rfl hi, ?_⟩
    cases h
    split
    · exact hsc
    · obtain ⟨hnodup, hmem, hphase, hidle, hzero, hreport, -⟩ := hsc
      refine ⟨hnodup, fun f => ?_, hphase, hidle, hzero, hreport, fun f _ => ⟨nofun, fun _ => ?_⟩⟩
      · simp only [State.frame, sel_mapAll]
        exact hmem f
      · simp only [State.frame, sel_mapAll]
  case rstRisingEdge qmode prst =>
    cases h
    split
    · refine ⟨fun f q _ => ?_, fun p => ?_, allFrames_nodup, fun f => ?_, .inr ?_, ?_, fun _ => ?_, nofun,
        fun f _ => ⟨nofun, fun _ => ?_⟩⟩
      · simp [State.frame, State.atRisingEdge, FrameRecord.reset]
      · simp [State.inbox, State.frame, State.atRisingEdge, FrameRecord.reset]
      · simp [State.frame, State.atRisingEdge, FrameRecord.reset, mem_allFrames]
      · exact List.ne_nil_of_mem (mem_allFrames 0)
      · rintro (h | h) <;> cases h
      · exact (by decide : (0 : Nat) < 16)
      · simp [State.frame, State.atRisingEdge, FrameRecord.reset]
    · exact ⟨hg, hi, hsc⟩
  all_goals exact ⟨grantsLegal_reads.keep hc rfl hg, inboxesLegal_reads.keep hc rfl hi, scrubLegal_reads.keep hc rfl hsc⟩

/-! ## The statement -/

theorem directoryLegal_reads : ReadsOnly State.DirectoryLegal (tableParts ++ [.dirMail, .engine]) := fun s t h hs => by
  have sub {l : List Part} (hl : l ⊆ tableParts ++ [.dirMail, .engine]) : ∀ x ∈ l, x.Same s t := fun x hx => h x (hl hx)
  obtain ⟨hf, hm, hv, hg, hi, hsc⟩ := hs
  exact ⟨framesLegal_reads s t (sub (by decide)) hf, marksLegal_reads s t (sub (by decide)) hm,
    viewLegal_reads s t (sub (by decide)) hv, grantsLegal_reads s t (sub (by decide)) hg,
    inboxesLegal_reads s t (sub (by decide)) hi, scrubLegal_reads s t (sub (by decide)) hsc⟩

theorem exec_keeps_directoryLegal (c : Instr) (s t : State) (h : exec c s = .next t) (hs : s.DirectoryLegal) :
    t.DirectoryLegal := by
  obtain ⟨hg, hi, hsc⟩ := exec_keeps_tables c s t h hs
  obtain ⟨hf, hm, hv, -⟩ := hs
  exact ⟨(exec_keeps_framesAndQuota (q := False) c s t h ⟨hf, False.elim⟩).1, exec_keeps_marksLegal c s t h hm,
    exec_keeps_viewLegal c s t h hv, hg, hi, hsc⟩

theorem State.DirectoryLegal.refclk (s : State) (hs : s.DirectoryLegal) : s.refclk.DirectoryLegal := by
  rcases s.refclk_cases with ⟨-, he⟩ | ⟨-, -, he⟩ | ⟨hrst, he⟩ <;> rw [he]
  · exact hs
  · exact directoryLegal_reads.keep (s.setTickCount_changes _) rfl hs
  · have htick : exec .tick s = .next (s.setTickCount 0).takeTick := by
      unfold exec execTick
      rw [whileRunning_high hrst, State.awaitTick_refclk s hrst]
    exact exec_keeps_directoryLegal .tick s _ htick hs

/-- Settles O58: the moves of the directory and of the sessions each keep the tables that they touch in agreement. -/
theorem stepKeepsDirectory : Obligations.StepKeepsDirectory := fun _ _ hs h =>
  step_keeps directoryLegal_reads rfl State.DirectoryLegal.refclk exec_keeps_directoryLegal h hs

end Sys2Proof.Machine
end

section
/-! SUPPORT. The moves of the Copy Engine: every command that writes a ring or the engine writes one ring and the engine, ends
the current job, or takes a closing. -/

namespace Sys2Proof.Machine

/-! ## The moves -/

/-- The parts of the sessions and of the requests to the directory. -/
def talkParts : List Part :=
  [.dirMail, .session .state, .closingTaken, .rstLow, .session .annCopy, .session .disposalDone]

/-- One ring and the engine's state are written. -/
structure EngineSet (s t : State) (p : Port) (g : Ring) (e : EngineState) : Prop where
  rings : t.copy.rings = put s.copy.rings p g
  engine : t.copy.engine = e
  owed : t.copy.owed = s.copy.owed
  jobGone : ∀ q, (t.session q).jobGone = (s.session q).jobGone
  talk : ∀ x ∈ talkParts, x.Same s t

/-- The current job ends, with the ring given, and the report of job gone if it is owed. -/
structure JobEnded (s t : State) (p : Port) (g : Ring) : Prop where
  rings : t.copy.rings = put s.copy.rings p g
  engine : t.copy.engine = .free
  owed : t.copy.owed = put s.copy.owed p false
  jobGone : ∀ q, (t.session q).jobGone = ((s.session q).jobGone || (q == p && sel s.copy.owed p))
  talk : ∀ x ∈ talkParts, x.Same s t

/-- Why one ring and the engine are written. -/
inductive SetReason (s : State) (p : Port) : Ring → EngineState → Prop
  /-- RING_SETUP (R102). -/
  | setup {c : RingConfig} (hup : (s.session p).state = .up) (hunset : (s.ring p).state = .unset)
      (hfits : ringFits c.base c.size = true) (howner : (s.frame c.frame).owner = some p)
      (howned : (s.frame c.frame).state = .owned) : SetReason s p ⟨.idle, some c, 0, .ok, false⟩ s.copy.engine
  /-- RING_KICK, RING_STOP or RING_RESTART of a ring without a current job (R103 to R105). -/
  | turned {st : RingState} (hup : (s.session p).state = .up)
      (hold : (s.ring p).state = .idle ∨ (s.ring p).state = .stopped ∨
        (s.ring p).state = .active ∧ s.jobCurrent p = false)
      (hnew : st = .active ∨ st = .stopped) : SetReason s p { s.ring p with state := st } s.copy.engine
  /-- RING_KICK with the ring's fetch in progress (R103). -/
  | noted (hup : (s.session p).state = .up) (hactive : (s.ring p).state = .active) (hfetch : s.fetchInProgress p = true) :
      SetReason s p { s.ring p with kickNoted := true } s.copy.engine
  /-- RING_STOP with the ring's job current (R104). -/
  | stopping (hup : (s.session p).state = .up) (hactive : (s.ring p).state = .active) (hjob : s.jobCurrent p = true) :
      SetReason s p { s.ring p with state := .stopping, kickNoted := false } s.copy.engine
  /-- RING_TEARDOWN (R106). -/
  | teardown (hup : (s.session p).state = .up) (hold : (s.ring p).state = .idle ∨ (s.ring p).state = .stopped) :
      SetReason s p Ring.unset s.copy.engine
  /-- The ring is selected (R111). -/
  | selected {c : RingConfig} (hup : (s.session p).state = .up) (hfree : s.copy.engine = .free)
      (hactive : (s.ring p).state = .active) (hc : (s.ring p).config = some c) :
      SetReason s p (s.ring p) (.fetching ((s.ring p).place c p))
  /-- A fetch ends and its job goes on (R112, R113). -/
  | fetched {j : JobPlace} {e : EngineState} (he : s.copy.engine = .fetching j) (hp : j.port = p)
      (hplace : e.place? = some j) (hnew : ∀ i, e ≠ .fetching i) (hjob : ∀ i ∈ e.job?, State.Job.Legal i) :
      SetReason s p { s.ring p with kickNoted := false } e
  /-- The job goes on with its next claim, or begins its segment (R115, R116). -/
  | goesOn {e : EngineState} (hold : ∀ i, s.copy.engine ≠ .fetching i) (hport : s.copy.engine.port? = some p)
      (hplace : e.place? = s.copy.engine.place?) (hnew : ∀ i, e ≠ .fetching i)
      (hjob : (∀ i ∈ s.copy.engine.job?, State.Job.Legal i) → ∀ i ∈ e.job?, State.Job.Legal i) : SetReason s p (s.ring p) e

/-- Why a job ends. -/
inductive EndReason (s : State) (p : Port) : Ring → Prop
  /-- A fetch finds OWN 0 (R112). -/
  | empty {j : JobPlace} (he : s.copy.engine = .fetching j) (hp : j.port = p) :
      EndReason s p (s.ring p).afterEmptyFetch
  /-- A write-back ends (R121). -/
  | written {w : WriteBack} (he : s.copy.engine = .writing w) (hp : w.place.port = p) :
      EndReason s p ((s.ring p).afterWriteBack w.status)
  /-- The job of a closed port is abandoned with its ring's kick (R124). -/
  | returned (hport : s.copy.engine.port? = some p) (hdown : (s.session p).state ≠ .up) :
      EndReason s p { s.ring p with kickNoted := false }
  /-- The job of a closed port is abandoned (R124). -/
  | abandoned (hport : s.copy.engine.port? = some p)
      (hdown : (s.session p).state ≠ .up ∧ (∀ i, s.copy.engine ≠ .fetching i) ∨ sel s.copy.owed p = true) :
      EndReason s p (s.ring p)

/-- What the Copy Engine makes of a closing that it takes (R124, R125): the port's ring is UNSET, and job gone is reported or
owed. -/
structure ClosingTaken (s t : State) (p : Port) : Prop where
  announced : (s.session p).annCopy = true
  rings : t.copy.rings = put s.copy.rings p Ring.unset
  annCopy : ∀ q, (t.session q).annCopy = ((s.session q).annCopy && q != p)
  outcome :
    t.copy.engine = s.copy.engine ∧ t.copy.owed = put s.copy.owed p true ∧ s.jobCurrent p = true ∧
        (∀ q, (t.session q).jobGone = (s.session q).jobGone) ∨
      (∀ q, (t.session q).jobGone = ((s.session q).jobGone || q == p)) ∧
        (t.copy.engine = s.copy.engine ∧ t.copy.owed = s.copy.owed ∧ s.jobCurrent p = false ∨
          t.copy.engine = .free ∧ t.copy.owed = put s.copy.owed p false ∧ s.jobCurrent p = true)
  talk : ∀ x ∈ [Part.dirMail, .session .state, .closingTaken, .rstLow, .session .disposalDone], x.Same s t

/-- What a command of the Copy Engine does to the rings and the engine. -/
inductive EngineMove (s t : State) : Prop
  | other (h : ∀ x ∈ talkParts ++ [.rings, .engine, .owed, .session .jobGone], x.Same s t)
  | set {p : Port} {g : Ring} {e : EngineState} (h : EngineSet s t p g e) (hwhy : SetReason s p g e)
  | ended {p : Port} {g : Ring} (hrst : s.rstLow = false) (h : JobEnded s t p g) (hwhy : EndReason s p g)
  | closing {p : Port} (hrst : s.rstLow = false) (h : ClosingTaken s t p)

/-! ## Their making -/

/-- A change leaves every part of a list that it shares nothing with. -/
theorem State.Changes.sames {s t : State} {l l' : List Part} (h : s.Changes t l') (hl : partsApart l l' = true) :
    ∀ x ∈ l, x.Same s t := fun x hx =>
  h.same_of_notMem x fun hm => absurd (List.all_eq_true.mp hl x hx) (by simp [hm])

theorem EngineSet.of_changes {s t : State} {l : List Part} {p : Port} {g : Ring} {e : EngineState}
    (h : ((s.setRing p g).setEngine e).Changes t l)
    (hl : partsApart (talkParts ++ [.rings, .engine, .owed, .session .jobGone]) l = true) : EngineSet s t p g e := by
  have same := h.sames hl
  have hset := (s.setRing_changes p g).trans (State.setEngine_changes _ e)
  exact ⟨same .rings (by decide), same .engine (by decide), same .owed (by decide),
    same (.session .jobGone) (by decide), fun x hx =>
      Part.Same.trans (hset.sames (l := talkParts) rfl x hx) (same x (List.mem_append_left _ hx))⟩

theorem State.setRing_self (s : State) (p : Port) : s.setRing p (s.ring p) = s := by
  simp only [State.setRing, State.ring, put_sel]

theorem State.finishJob_owed (s : State) (p : Port) : (s.finishJob p).copy.owed = put s.copy.owed p false := by
  rw [State.finishJob_eq]
  rfl

theorem State.finishJob_jobGone (s : State) (p q : Port) :
    ((s.finishJob p).session q).jobGone = ((s.session q).jobGone || (q == p && sel s.copy.owed p)) := by
  rw [State.finishJob_eq]
  simp only [State.withoutJob, State.session]
  cases sel s.copy.owed p with
  | false => simp
  | true =>
    rw [if_pos rfl, sel_put]
    by_cases hq : q = p <;> simp [hq]

theorem JobEnded.of_changes {s t u : State} {l l' : List Part} {p : Port} {g : Ring} (h : (s.setRing p g).Changes u l)
    (hl : partsApart (talkParts ++ [.rings, .owed, .session .jobGone]) l = true) (h' : (u.finishJob p).Changes t l')
    (hl' : partsApart (talkParts ++ [.rings, .engine, .owed, .session .jobGone]) l' = true) : JobEnded s t p g := by
  have same := h.sames hl
  have same' := h'.sames hl'
  have hrings : u.copy.rings = put s.copy.rings p g := same .rings (by decide)
  have howed : u.copy.owed = s.copy.owed := same .owed (by decide)
  have hgone : ∀ q, (u.session q).jobGone = (s.session q).jobGone := same (.session .jobGone) (by decide)
  have hrings' : t.copy.rings = u.copy.rings :=
    Eq.trans (same' .rings (by decide)) ((u.finishJob_changes p).same .rings rfl)
  have hengine : t.copy.engine = (u.finishJob p).copy.engine := same' .engine (by decide)
  have howed' : t.copy.owed = (u.finishJob p).copy.owed := same' .owed (by decide)
  have hgone' : ∀ q, (t.session q).jobGone = ((u.finishJob p).session q).jobGone := same' (.session .jobGone) (by decide)
  refine ⟨hrings'.trans hrings, hengine.trans (u.finishJob_engine p), ?_, fun q => ?_, fun x hx => ?_⟩
  · rw [howed', State.finishJob_owed, howed]
  · rw [hgone', State.finishJob_jobGone, hgone, howed]
  · exact (((s.setRing_changes p g).sames (l := talkParts) rfl x hx).trans (same x (List.mem_append_left _ hx))).trans
      (((u.finishJob_changes p).sames (l := talkParts) rfl x hx).trans (same' x (List.mem_append_left _ hx)))

theorem EngineMove.of_changes {s t : State} {l : List Part} (h : s.Changes t l)
    (hl : partsApart (talkParts ++ [.rings, .engine, .owed, .session .jobGone]) l = true) : EngineMove s t :=
  .other (h.sames hl)

/-! ## The commands as moves -/

/-- A ring command writes its port's ring alone. -/
theorem EngineMove.of_ring {s t : State} {p : Port} {g : Ring} (hwhy : SetReason s p g s.copy.engine)
    (h : (s.setRing p g).Changes t []) : EngineMove s t :=
  .set (EngineSet.of_changes (e := s.copy.engine) h rfl) hwhy

/-- A job ends with its ring as it is. -/
theorem EngineMove.of_finish {s t : State} {l : List Part} {p : Port} (hrst : s.rstLow = false)
    (hwhy : EndReason s p (s.ring p)) (h : (s.finishJob p).Changes t l)
    (hl : partsApart (talkParts ++ [.rings, .engine, .owed, .session .jobGone]) l = true) : EngineMove s t := by
  refine .ended hrst (JobEnded.of_changes (l := []) (u := s) ?_ rfl h hl) hwhy
  rw [State.setRing_self]
  exact .refl ..

/-- The engine's state alone is written. -/
theorem EngineMove.of_engine {s t : State} {l : List Part} {p : Port} {e : EngineState} (hwhy : SetReason s p (s.ring p) e)
    (h : (s.setEngine e).Changes t l)
    (hl : partsApart (talkParts ++ [.rings, .engine, .owed, .session .jobGone]) l = true) : EngineMove s t := by
  refine .set (EngineSet.of_changes (l := l) ?_ hl) hwhy
  rwa [State.setRing_self]

theorem State.takeCommand_engineMove {s : State} {p : Port} {owns : Byte → Bool}
    {body : State → Port → Args → State × Reply}
    (h : (s.session p).state = .up → ∀ a t, (body s p a).1.Changes t [] → EngineMove s t) :
    EngineMove s (s.takeCommand p owns body) := by
  rcases s.takeCommand_cases p owns body with ⟨he, -⟩ | ⟨k, -, -, hup, he⟩ | ⟨k, -, -, -, he⟩ <;> rw [he]
  · exact .of_changes (.refl s []) rfl
  · exact h (State.isUp_iff.mp hup) k.args _ (State.setCommand_changes ..)
  · exact .of_changes (s.discard_changes p) rfl

section

variable {s t : State} {p : Port} {a : Args} (hup : (s.session p).state = .up)
include hup

theorem ringSetupBody_move (h : (ringSetupBody s p a).1.Changes t []) : EngineMove s t := by
  unfold ringSetupBody at h
  repeat' split at h
  all_goals first
    | exact .of_changes h rfl
    | exact .of_ring (.setup hup (by simp_all) (by simp_all) (by simp_all) (by simp_all)) h

theorem ringKickBody_move (h : (ringKickBody s p a).1.Changes t []) : EngineMove s t := by
  unfold ringKickBody at h
  dsimp only at h
  split at h
  · exact .of_ring (.turned hup (.inl ‹_›) (.inl rfl)) h
  · split at h
    · exact .of_ring (.noted hup ‹_› ‹_›) h
    · exact .of_changes h rfl
  all_goals exact .of_changes h rfl

theorem ringStopBody_move (h : (ringStopBody s p a).1.Changes t []) : EngineMove s t := by
  unfold ringStopBody at h
  dsimp only at h
  split at h
  · split at h
    · exact .of_ring (.stopping hup ‹_› ‹_›) h
    · exact .of_ring (.turned hup (.inr (.inr ⟨‹_›, by simp_all⟩)) (.inr rfl)) h
  · exact .of_ring (.turned hup (.inl ‹_›) (.inr rfl)) h
  all_goals exact .of_changes h rfl

theorem ringRestartBody_move (h : (ringRestartBody s p a).1.Changes t []) : EngineMove s t := by
  unfold ringRestartBody at h
  split at h
  · exact .of_ring (.turned hup (.inr (.inl ‹_›)) (.inl rfl)) h
  · exact .of_changes h rfl

theorem ringTeardownBody_move (h : (ringTeardownBody s p a).1.Changes t []) : EngineMove s t := by
  unfold ringTeardownBody at h
  split at h
  · exact .of_ring (.teardown hup ‹_›) h
  · exact .of_changes h rfl

end

/-- A validated job lies inside its frames and has moved nothing yet (R113). -/
theorem Descriptor.toJob_legal {d : Descriptor} {j : JobPlace} {job : Job} (h : d.toJob j = some job) :
    State.Job.Legal job ∧ job.place = j := by
  unfold Descriptor.toJob at h
  split at h
  · split at h
    · split at h
      · rename_i hlen _ _ _ _ _ _ hin
        cases h
        refine ⟨⟨hlen.1, hin.1, hin.2, hlen.1, rfl⟩, rfl⟩
      · cases h
    · cases h
  · cases h

/-- What validation makes of the engine: the job's first claim or its write-back. -/
theorem State.validate_engine (s : State) (j : JobPlace) (d : Descriptor) :
    ∃ e, s.validate j d = s.request e ∧ e.place? = some j ∧ (∀ i, e ≠ .fetching i) ∧
      ∀ i ∈ e.job?, State.Job.Legal i := by
  unfold State.validate
  split
  · exact ⟨_, rfl, rfl, nofun, nofun⟩
  · rename_i job hjob
    obtain ⟨hlegal, hplace⟩ := Descriptor.toJob_legal hjob
    split
    · refine ⟨_, rfl, congrArg some hplace, nofun, fun i hi => ?_⟩
      cases hi
      exact hlegal
    · exact ⟨_, rfl, rfl, nofun, nofun⟩

/-- A job goes on with whole segments behind it. -/
theorem State.Job.Legal.advance {j : Job} (hj : State.Job.Legal j) {l : List Byte} (hl : l.length = j.segmentLength)
    (hmore : (j.advance l).done < (j.advance l).length) : State.Job.Legal (j.advance l) := by
  obtain ⟨hlen, hsource, hdest, -, hmod⟩ := hj
  refine ⟨hlen, hsource, hdest, hmore, ?_⟩
  simp only [Job.advance, hl, Job.segmentLength, Config.pieceBytes] at hmore ⊢
  omega

/-! ### A closing at the engine -/

theorem State.jobGone_setJobGone (s : State) (p q : Port) :
    ((s.setSession p { s.session p with jobGone := true }).session q).jobGone =
      ((s.session q).jobGone || q == p) := by
  rw [State.setSession_session]
  by_cases hq : q = p <;> simp [hq]

/-- Where the job is current, it is abandoned and reported, or its report is owed. -/
theorem State.closeJob_cases (s : State) (p : Port) :
    (s.jobCurrent p = false ∧ s.closeJob p = s.setSession p { s.session p with jobGone := true }) ∨
      s.jobCurrent p = true ∧ (s.closeJob p = s.setOwed p true ∨
        ∃ b, s.closeJob p = ((s.setArbiter b).setOwed p true).finishJob p) := by
  unfold State.closeJob
  split
  · rename_i hjob
    refine .inr ⟨hjob, ?_⟩
    split
    · exact .inl rfl
    · dsimp only
      split
      · exact .inr ⟨_, rfl⟩
      · exact .inr ⟨_, rfl⟩
    · split
      · exact .inl rfl
      · exact .inr ⟨_, rfl⟩
  · rename_i hjob
    exact .inl ⟨(Bool.not_eq_true _).mp hjob, rfl⟩

/-- The state in which the engine has taken a port's announcement and its ring is UNSET. -/
def State.ringClosed (s : State) (p : Port) : State :=
  (s.setSession p { s.session p with annCopy := false }).setRing p Ring.unset

theorem State.ringClosed_changes (s : State) (p : Port) : s.Changes (s.ringClosed p) [.session .annCopy, .rings] := by
  refine (s.setSession_changes p _ [.session .annCopy] fun k hk => ?_).trans (State.setRing_changes ..)
  cases k <;> first | exact absurd (by decide) hk | exact SessionField.same_of_refl rfl

theorem ClosingTaken.of_closeJob {s : State} {p : Port} (hann : (s.session p).annCopy = true) :
    ClosingTaken s ((s.ringClosed p).closeJob p) p := by
  have hclosed := s.ringClosed_changes p
  have hjob : (s.ringClosed p).jobCurrent p = s.jobCurrent p := rfl
  have hcc := State.closeJob_changes (s.ringClosed p) p
  have hgone : ∀ q, ((s.ringClosed p).session q).jobGone = (s.session q).jobGone := hclosed.same (.session .jobGone) rfl
  refine ⟨hann, (hcc.same .rings rfl : _ = (s.ringClosed p).copy.rings), fun q => ?_, ?_, fun x hx => ?_⟩
  · have hann' : (((s.ringClosed p).closeJob p).session q).annCopy = ((s.ringClosed p).session q).annCopy :=
      hcc.same (.session .annCopy) rfl q
    rw [hann']
    show ((s.setSession p _).session q).annCopy = _
    rw [State.setSession_session]
    by_cases hq : q = p <;> simp [hq]
  · rcases (s.ringClosed p).closeJob_cases p with ⟨hcur, he⟩ | ⟨hcur, he | ⟨b, he⟩⟩
    · refine .inr ⟨fun q => ?_, .inl ⟨by rw [he]; rfl, by rw [he]; rfl, hjob.symm.trans hcur⟩⟩
      rw [he, State.jobGone_setJobGone, hgone]
    · exact .inl ⟨by rw [he]; rfl, by rw [he]; rfl, hjob.symm.trans hcur, fun q => by rw [he]; exact hgone q⟩
    · refine .inr ⟨fun q => ?_, .inr ⟨by rw [he, State.finishJob_engine], ?_, hjob.symm.trans hcur⟩⟩
      · rw [he, State.finishJob_jobGone]
        have hset : sel (((s.ringClosed p).setArbiter b).setOwed p true).copy.owed p = true := sel_put_same ..
        rw [hset, Bool.and_true]
        exact congrArg (· || q == p) (hgone q)
      · rw [he, State.finishJob_owed]
        exact put_put ..
  · exact (hclosed.trans hcc).sames
      (l := [Part.dirMail, .session .state, .closingTaken, .rstLow, .session .disposalDone]) rfl x hx

/-! ### Every command -/

theorem EngineState.port?_of_readsSession {e : EngineState} {p : Port} (h : e.readsSessionAtGrant = some p) :
    e.port? = some p := by
  cases e with
  | fetching j => exact h
  | writing w => exact h
  | _ => cases h

/-- A grant of a fetch or of a write-back of a port that is not UP ends its job (R124). -/
theorem State.grantClaim_move {s : State} (hrst : s.rstLow = false) (b : Arbiter) (c : Claimant) :
    EngineMove s ((s.setArbiter b).grantClaim c) := by
  unfold State.grantClaim
  dsimp only
  split
  · rename_i p hreads
    split
    · exact .of_changes ((s.setArbiter_changes b).trans (State.setArbiter_changes _ _)) rfl
    · rename_i hdown
      refine .ended hrst (JobEnded.of_changes (l := [.arbiter]) (State.setArbiter_changes _ _) rfl
        (State.endGrant_changes _) rfl) (.returned (EngineState.port?_of_readsSession hreads) ?_)
      exact State.isUp_false_iff.mp ((Bool.not_eq_true _).mp hdown)
  · exact .of_changes ((s.setArbiter_changes b).trans (State.setArbiter_changes _ _)) rfl

/-- A segment ends and its job goes on. -/
theorem State.segment_move {s : State} {p : Port} {e : EngineState} (hwhy : SetReason s p (s.ring p) e) (m : Memory)
    (j : Job) : EngineMove s ((((s.setMem m).setMarks j false).endGrant.request e).wakeHeld) := by
  have hcomm : ((s.setMem m).setMarks j false).endGrant.request e =
      (((s.setEngine e).setMem m).setMarks j false).setArbiter
        ((((s.setMem m).setMarks j false).endGrant.request e).arbiter) := rfl
  rw [hcomm]
  exact .of_engine hwhy ((((State.setMem_changes _ m).trans (State.setMarks_changes _ j false)).trans
    (State.setArbiter_changes _ _)).trans (State.wakeHeld_changes _)) rfl

/-- A write-back ends its job. -/
theorem State.writeBack_move {s : State} (hrst : s.rstLow = false) {w : WriteBack} (he : s.copy.engine = .writing w)
    (m : Memory) :
    EngineMove s (((((s.setMem m).setRing w.place.port ((s.ring w.place.port).afterWriteBack w.status)).handOver .copyEngine
      w.events).finishJob w.place.port).endGrant) := by
  have hcomm : (s.setMem m).setRing w.place.port ((s.ring w.place.port).afterWriteBack w.status) =
      (s.setRing w.place.port ((s.ring w.place.port).afterWriteBack w.status)).setMem m := rfl
  rw [hcomm]
  exact .ended hrst (JobEnded.of_changes ((State.setMem_changes _ m).trans (State.handOver_changes ..)) rfl
    (State.endGrant_changes _) rfl) (.written he rfl)

/-- The commands of the rings and of the engine, and every command that touches neither, nor the sessions, nor RST#. -/
theorem exec_engineMove {c : Instr} {s t : State} (h : exec c s = .next t) (hses : ¬Instr.IsSession c)
    (hrises : ∀ q v, c ≠ .rstRisingEdge q v) (hfalls : c ≠ .rstAsserted) : EngineMove s t := by
  have hc := exec_changes h
  have run {act : State → State} (hr : whileRunning s act = .next t)
      (hact : s.rstLow = false → EngineMove s (act s)) : EngineMove s t :=
    whileRunning_keeps (P := EngineMove s) hr (.of_changes (.refl s []) rfl) hact
  have none : EngineMove s s := .of_changes (.refl s []) rfl
  cases c <;> first | exact absurd trivial hses | unfold exec at h
  case ringSetup p => exact run h fun _ => s.takeCommand_engineMove fun hup _ _ => ringSetupBody_move hup
  case ringKick p => exact run h fun _ => s.takeCommand_engineMove fun hup _ _ => ringKickBody_move hup
  case ringStop p => exact run h fun _ => s.takeCommand_engineMove fun hup _ _ => ringStopBody_move hup
  case ringRestart p => exact run h fun _ => s.takeCommand_engineMove fun hup _ _ => ringRestartBody_move hup
  case ringTeardown p => exact run h fun _ => s.takeCommand_engineMove fun hup _ _ => ringTeardownBody_move hup
  case selection =>
    refine run h fun _ => ?_
    split
    · rename_i hfree
      split
      · exact none
      · rename_i p hp
        obtain ⟨hactive, hup⟩ : (s.ring p).state = .active ∧ s.isUp p = true := by simpa using List.find?_some hp
        split
        · exact none
        · refine .of_engine (p := p) (.selected (State.isUp_iff.mp hup) hfree hactive ‹_›)
            (l := [] ++ [.arbiter]) ((State.setPointer_changes _ p).trans (State.present_changes _ .copy)) rfl
    · exact none
  case fetchEnd =>
    refine run h fun hrst => ?_
    split
    · rename_i j he
      have hport : s.copy.engine.port? = some j.port := by rw [he]; rfl
      split
      · dsimp only
        split
        · exact .of_finish hrst (.abandoned hport (.inr ‹_›)) (State.endGrant_changes _) rfl
        · split
          · obtain ⟨e, hv, hplace, hnew, hjob⟩ := State.validate_engine
              ((s.setRing j.port { s.ring j.port with kickNoted := false }).endGrant) j (readDescriptor s.mem j.addr)
            rw [hv]
            refine .set (EngineSet.of_changes (l := [.arbiter]) ?_ rfl) (.fetched he rfl hplace hnew hjob)
            exact State.setArbiter_changes _ _
          · exact .ended hrst (JobEnded.of_changes (State.endGrant_changes _) rfl (.refl _ []) rfl) (.empty he rfl)
      · exact none
    · exact none
  case segmentBegin =>
    refine run h fun hrst => ?_
    split
    · rename_i j he
      have hport : s.copy.engine.port? = some j.place.port := by rw [he]; rfl
      have hold : ∀ i, s.copy.engine ≠ .fetching i := fun i => by rw [he]; nofun
      split
      · split
        · rename_i hdown
          refine .of_finish hrst (.abandoned hport (.inl ⟨?_, hold⟩)) (State.endGrant_changes _) rfl
          exact State.isUp_false_iff.mp (by simpa using hdown)
        · split
          · refine .of_engine (.goesOn (e := .transferring j) hold hport (by rw [he]; rfl) nofun ?_)
              (l := [.frame .mark]) (State.setMarks_changes (s.setEngine (.transferring j)) j true) rfl
            rw [he]
            exact fun h => h
          · exact .of_engine (.goesOn (e := .writing _) hold hport (by rw [he]; rfl) nofun fun _ => nofun) (l := [.arbiter])
              (State.setArbiter_changes _ _) rfl
      · exact none
    · exact none
  case segmentEnd =>
    refine run h fun hrst => ?_
    split
    · rename_i j he
      have hport : s.copy.engine.port? = some j.place.port := by rw [he]; rfl
      have hold : ∀ i, s.copy.engine ≠ .fetching i := fun i => by rw [he]; nofun
      split
      · dsimp only
        generalize hmoved : Memory.readBytes _ j.destAddr j.segmentLength = moved
        generalize Memory.copyBytes s.mem _ _ _ = m at hmoved ⊢
        have hlen : moved.length = j.segmentLength := by rw [← hmoved, Memory.readBytes_length]
        unfold State.afterSegment
        split
        · refine .ended hrst (JobEnded.of_changes (l := [.mem] ++ [.frame .mark] ++ [.arbiter]) ?_ rfl
            (State.wakeHeld_changes _) rfl) (.abandoned hport (.inr ‹_›))
          rw [State.setRing_self]
          exact ((s.setMem_changes m).trans (State.setMarks_changes _ j false)).trans (State.endGrant_changes _)
        · split
          · refine State.segment_move (.goesOn (e := .waiting (j.advance moved)) hold hport (by rw [he]; rfl) nofun
              fun hjob i hi => ?_) m j
            cases hi
            exact (hjob j (by rw [he]; rfl)).advance hlen ‹_›
          · exact State.segment_move (.goesOn (e := .writing _) hold hport (by rw [he]; rfl) nofun fun _ => nofun) m j
      · exact none
    · exact none
  case writeBackEnd =>
    refine run h fun hrst => ?_
    split
    · rename_i w he
      split
      · dsimp only
        exact State.writeBack_move hrst he _
      · exact none
    · exact none
  case arbiterGrant happening =>
    refine run h fun hrst => ?_
    cases happening with
    | arrival c =>
      dsimp only
      split
      · split
        · exact State.grantClaim_move hrst _ c
        · exact .of_changes ((State.setArbiter_changes _ _).trans (State.setArbiter_changes _ _)) rfl
      · exact none
    | endOfGrant =>
      dsimp only
      split
      · split
        · exact State.grantClaim_move hrst s.arbiter _
        · exact .of_changes (State.setArbiter_changes _ _) rfl
      · exact none
  case copyEngineClosing p =>
    refine run h fun hrst => ?_
    split
    · exact .closing hrst (.of_closeJob ‹_›)
    · exact none
  case rstAsserted => exact absurd rfl hfalls
  case rstRisingEdge q v => exact absurd rfl (hrises q v)
  all_goals exact .of_changes hc rfl

end Sys2Proof.Machine
end

section
/-! SUPPORT. The teardown of a closing port and the rings of closed ports: one thing under way in each closing (R125, R177,
R178), and no ring of a port whose closing the engine has taken (R124). -/

namespace Sys2Proof.Machine

/-! ## The teardown -/

/-- What the teardown of one port must satisfy. -/
def State.PortTeardown (s : State) (p : Port) : Prop :=
  (s.isClosing p = true → s.rstLow = false → s.teardownTokens p = 1) ∧
    (s.isClosing p = false → s.teardownTokens p = 0) ∧
    ((s.session p).state.step? = some .awaitJob → .dispose p ∉ s.dirMail ∧ (s.session p).disposalDone = false) ∧
    ((s.session p).state.step? = some .awaitDisposal →
      (s.session p).annCopy = false ∧ sel s.copy.owed p = false ∧ (s.session p).jobGone = false)

theorem State.teardownLegal_iff {s : State} : s.TeardownLegal ↔ ∀ p, s.PortTeardown p := Iff.rfl

section

variable {s t : State} {p : Port}

/-- A port whose progress is as it was. -/
theorem State.PortTeardown.congr (hs : s.PortTeardown p) (hst : (t.session p).state = (s.session p).state)
    (hrst : t.rstLow = s.rstLow) (hann : (t.session p).annCopy = (s.session p).annCopy)
    (howed : sel t.copy.owed p = sel s.copy.owed p) (hgone : (t.session p).jobGone = (s.session p).jobGone)
    (hmail : .dispose p ∈ t.dirMail ↔ .dispose p ∈ s.dirMail)
    (hdone : (t.session p).disposalDone = (s.session p).disposalDone) : t.PortTeardown p := by
  have hcontains : t.dirMail.contains (.dispose p) = s.dirMail.contains (.dispose p) := by
    rw [Bool.eq_iff_iff, List.contains_iff_mem, List.contains_iff_mem, hmail]
  unfold State.PortTeardown State.teardownTokens
  rw [hst, hrst, hann, howed, hgone, hmail, hdone, hcontains, State.isClosing_congr hst]
  exact hs

/-- With none of a port's marks on there is no teardown of it under way. -/
theorem State.tokens_zero_iff : s.teardownTokens p = 0 ↔
    (s.session p).annCopy = false ∧ sel s.copy.owed p = false ∧ (s.session p).jobGone = false ∧
      .dispose p ∉ s.dirMail ∧ (s.session p).disposalDone = false := by
  simp [State.teardownTokens, and_assoc]

theorem State.PortTeardown.tokens_of_not_closing (hs : s.PortTeardown p) (h : s.isClosing p = false) :
    (s.session p).annCopy = false ∧ sel s.copy.owed p = false ∧ (s.session p).jobGone = false ∧
      .dispose p ∉ s.dirMail ∧ (s.session p).disposalDone = false := State.tokens_zero_iff.mp (hs.2.1 h)

/-- A port with one of its marks on is CLOSING. -/
theorem State.PortTeardown.closing (hs : s.PortTeardown p) (h : s.teardownTokens p ≠ 0) : s.isClosing p = true := by
  by_contra hnot
  exact h (hs.2.1 ((Bool.not_eq_true _).mp hnot))

theorem State.PortTeardown.one (hs : s.PortTeardown p) (hrst : s.rstLow = false) (h : s.teardownTokens p ≠ 0) :
    s.teardownTokens p = 1 := hs.1 (hs.closing h) hrst

end

theorem teardownLegal_reads : ReadsOnly State.TeardownLegal
    [.session .state, .session .annCopy, .session .jobGone, .session .disposalDone, .owed, .dirMail, .rstLow] :=
  fun s t h hs p => by
    have howed : t.copy.owed = s.copy.owed := h .owed (by decide)
    have hmail : t.dirMail = s.dirMail := h .dirMail (by decide)
    exact State.PortTeardown.congr (hs p) (h (.session .state) (by decide) p) (h .rstLow (by decide))
      (h (.session .annCopy) (by decide) p) (by rw [howed]) (h (.session .jobGone) (by decide) p) (by rw [hmail])
      (h (.session .disposalDone) (by decide) p)

theorem SessionMove.keeps_teardownLegal {gone : Port → Prop} {s t : State} (h : SessionMove gone s t) (hv : s.ViewLegal)
    (hs : s.TeardownLegal) : t.TeardownLegal := by
  obtain ⟨hmail, hview⟩ := State.viewLegal_iff.mp hv
  intro q
  show t.PortTeardown q
  have hq : s.PortTeardown q := hs q
  cases h
  case other h => exact teardownLegal_reads.keep h rfl hs q
  case close p rejoin hup =>
    by_cases he : q = p
    · subst he
      obtain ⟨hann, howed, hgone, hdis, hdone⟩ := hq.tokens_of_not_closing (State.isClosing_of_up hup)
      have hses := s.enterClosing_session_same q rejoin
      have hdis' : .dispose q ∉ (s.enterClosing q rejoin).dirMail := by simpa [State.enterClosing] using hdis
      have howed' : sel (s.enterClosing q rejoin).copy.owed q = false := howed
      refine ⟨fun _ _ => ?_, ?_, fun _ => ⟨hdis', by rw [hses]; exact hdone⟩, fun hstep => ?_⟩
      · simp [State.teardownTokens, hses, howed', hgone, hdis', hdone]
      · simp [State.isClosing, hses]
      · rw [hses] at hstep; cases hstep
    · have hses := s.enterClosing_session_of_ne rejoin he
      exact hq.congr (by rw [hses]) rfl (by rw [hses]) rfl (by rw [hses]) (by simp [State.enterClosing]) (by rw [hses])
  case rejoin p old new step hclosing =>
    by_cases he : q = p
    · subst he
      have hses : (s.setSession q { s.session q with state := .closing new step }).session q =
          { s.session q with state := .closing new step } := State.setSession_session_same ..
      have hstep : (s.session q).state.step? = some step := by rw [hclosing]; rfl
      obtain ⟨hone, -, hjob, hdisp⟩ := hq
      rw [hstep] at hjob hdisp
      refine ⟨fun _ hrst => ?_, ?_, fun h => ?_, fun h => ?_⟩
      · have := hone (State.isClosing_of_state hclosing) hrst
        unfold State.teardownTokens at this ⊢
        rw [hses]
        exact this
      · simp [State.isClosing, hses]
      · rw [hses] at h ⊢; exact hjob h
      · rw [hses] at h ⊢; exact hdisp h
    · have hses := State.setSession_session_of_ne s p { s.session p with state := .closing new step } q he
      exact hq.congr (by rw [hses]) rfl (by rw [hses]) rfl (by rw [hses]) Iff.rfl (by rw [hses])
  case enter p hdown =>
    by_cases he : q = p
    · subst he
      have hnone := hq.tokens_of_not_closing (State.isClosing_of_down hdown)
      have hses := s.enterUp_session_same q
      have hzero : (s.enterUp q).teardownTokens q = 0 := by
        rw [State.tokens_zero_iff, hses]
        exact hnone
      refine ⟨fun h => ?_, fun _ => hzero, fun h => ?_, fun h => ?_⟩
      · simp [State.isClosing, hses] at h
      · rw [hses] at h; cases h
      · rw [hses] at h; cases h
    · have hses := s.enterUp_session_of_ne he
      exact hq.congr (by rw [hses]) rfl (by rw [hses]) rfl (by rw [hses]) Iff.rfl (by rw [hses])
  case taken p rest hm =>
    exact hq.congr rfl rfl rfl rfl rfl (by simp [hm]) rfl
  case jobGone p rejoin hrst hclosing hgone =>
    by_cases he : q = p
    · subst he
      have hone := hq.1 (State.isClosing_of_state hclosing) hrst
      obtain ⟨hdis, hdone⟩ := hq.2.2.1 (by rw [hclosing]; rfl)
      have hses : ((s.setSession q { s.session q with state := .closing rejoin .awaitDisposal, jobGone := false }).setDirMail
          (s.dirMail ++ [.dispose q])).session q =
          { s.session q with state := .closing rejoin .awaitDisposal, jobGone := false } := State.setSession_session_same ..
      simp only [State.teardownTokens, hgone, Bool.toNat_true] at hone
      have hann : (s.session q).annCopy = false := by
        by_contra h; rw [(Bool.not_eq_false _).mp h, Bool.toNat_true] at hone; omega
      have howed : sel s.copy.owed q = false := by
        by_contra h; rw [(Bool.not_eq_false _).mp h, Bool.toNat_true] at hone; omega
      refine ⟨fun _ _ => ?_, ?_, fun h => ?_, fun _ => by rw [hses]; exact ⟨hann, howed, rfl⟩⟩
      · simp [State.teardownTokens, State.setSession_session_same, hann, howed, hdone]
      · simp [State.isClosing]
      · rw [hses] at h; cases h
    · have hses : ((s.setSession p { s.session p with state := .closing rejoin .awaitDisposal, jobGone := false }).setDirMail
          (s.dirMail ++ [.dispose p])).session q = s.session q := State.setSession_session_of_ne _ _ _ _ he
      exact hq.congr (by rw [hses]) rfl (by rw [hses]) rfl (by rw [hses]) (by simp [he]) (by rw [hses])
  case disposed p rest _ hrst hm htaken =>
    by_cases he : q = p
    · subst he
      have hin : .dispose q ∈ s.dirMail := by rw [hm]; exact List.mem_cons_self
      have hnot : .dispose q ∉ rest := by
        rw [hm] at hmail
        exact (List.nodup_cons.mp hmail.1).1
      have hstep := (hview q).2.2.2.1 hin
      obtain ⟨hann, howed, hgone⟩ := hq.2.2.2 hstep
      have hses : ((s.setDirMail rest).setSession q { s.session q with disposalDone := true }).session q =
          { s.session q with disposalDone := true } := State.setSession_session_same ..
      refine ⟨fun _ _ => ?_, fun h => ?_, fun h => ?_, fun _ => by rw [hses]; exact ⟨hann, howed, hgone⟩⟩
      · simp [State.teardownTokens, hann, howed, hgone, hnot]
      · have hclosing := hq.closing (fun hz => (State.tokens_zero_iff.mp hz).2.2.2.1 hin)
        rw [State.isClosing_congr (s := s) (by rw [hses]), hclosing] at h
        cases h
      · rw [hses, hstep] at h; cases h
    · have hses : ((s.setDirMail rest).setSession p { s.session p with disposalDone := true }).session q = s.session q :=
        State.setSession_session_of_ne _ _ _ _ he
      exact hq.congr (by rw [hses]) rfl (by rw [hses]) rfl (by rw [hses]) (by simp [hm, he]) (by rw [hses])
  case complete p rejoin hrst hclosing hdone hsettled =>
    by_cases he : q = p
    · subst he
      obtain ⟨hann, howed, hgone⟩ := hq.2.2.2 (by rw [hclosing]; rfl)
      obtain ⟨-, -, -, -, -, hdis⟩ := State.closingSettled_iff.mp hsettled
      have hses : (s.setSession q { s.session q with state := .down, disposalDone := false }).session q =
          { s.session q with state := .down, disposalDone := false } := State.setSession_session_same ..
      have hzero : (s.setSession q { s.session q with state := .down, disposalDone := false }).teardownTokens q = 0 := by
        rw [State.tokens_zero_iff, hses]
        exact ⟨hann, howed, hgone, hdis, rfl⟩
      refine ⟨fun h => ?_, fun _ => hzero, fun h => ?_, fun h => ?_⟩
      · simp [State.isClosing, hses] at h
      · rw [hses] at h; cases h
      · rw [hses] at h; cases h
    · have hses := State.setSession_session_of_ne s p { s.session p with state := .down, disposalDone := false } q he
      exact hq.congr (by rw [hses]) rfl (by rw [hses]) rfl (by rw [hses]) Iff.rfl (by rw [hses])

/-- A job that ends turns the report that is owed into the report on its way. -/
theorem JobEnded.keeps_teardownLegal {s t : State} {p : Port} {g : Ring} (h : JobEnded s t p g) (hrst : s.rstLow = false)
    (hs : s.TeardownLegal) : t.TeardownLegal := fun q => by
  have hq : s.PortTeardown q := hs q
  have hst : (t.session q).state = (s.session q).state := h.talk (.session .state) (by decide) q
  have hann : (t.session q).annCopy = (s.session q).annCopy := h.talk (.session .annCopy) (by decide) q
  have hdone : (t.session q).disposalDone = (s.session q).disposalDone := h.talk (.session .disposalDone) (by decide) q
  have hmail : t.dirMail = s.dirMail := h.talk .dirMail (by decide)
  have hrst' : t.rstLow = s.rstLow := h.talk .rstLow (by decide)
  have hgone := h.jobGone q
  have howed : sel t.copy.owed q = (sel s.copy.owed q && q != p) := by
    rw [h.owed, sel_put]
    by_cases he : q = p <;> simp [he]
  show t.PortTeardown q
  by_cases he : q = p ∧ sel s.copy.owed p = true
  · obtain ⟨rfl, ho⟩ := he
    rw [ho, beq_self_eq_true, Bool.and_true, Bool.or_true] at hgone
    rw [ho, bne_self_eq_false, Bool.and_false] at howed
    have hone := hq.one hrst fun hz => by simpa [ho] using (State.tokens_zero_iff.mp hz).2.1
    have hclosing := hq.closing (by omega)
    have hgone' : (s.session q).jobGone = false := by
      by_contra hne
      rw [Bool.not_eq_false] at hne
      simp only [State.teardownTokens, ho, hne, Bool.toNat_true] at hone
      omega
    refine ⟨fun _ _ => ?_, fun hnot => ?_, fun hstep => ?_, fun hstep => ?_⟩
    · simp only [State.teardownTokens, ho, hgone', Bool.toNat_true, Bool.toNat_false] at hone
      simp only [State.teardownTokens, hann, howed, hgone, hmail, hdone, Bool.toNat_true, Bool.toNat_false]
      omega
    · rw [State.isClosing_congr hst, hclosing] at hnot; cases hnot
    · rw [hst] at hstep
      rw [hmail, hdone]
      exact hq.2.2.1 hstep
    · rw [hst] at hstep
      have := (hq.2.2.2 hstep).2.1
      rw [ho] at this
      cases this
  · refine hq.congr hst hrst' hann ?_ ?_ (by rw [hmail]) hdone
    · rw [howed]
      by_cases hp : q = p
      · subst hp
        simp only [true_and, Bool.not_eq_true] at he
        simp [he]
      · simp [hp]
    · rw [hgone]
      by_cases hp : q = p
      · subst hp
        simp only [true_and, Bool.not_eq_true] at he
        simp [he]
      · simp [hp]

/-- The engine's taking of a closing turns the announcement into a report, on its way or owed. -/
theorem ClosingTaken.keeps_teardownLegal {s t : State} {p : Port} (h : ClosingTaken s t p) (hrst : s.rstLow = false)
    (hs : s.TeardownLegal) : t.TeardownLegal := fun q => by
  have hq : s.PortTeardown q := hs q
  have hst : (t.session q).state = (s.session q).state := h.talk (.session .state) (by decide) q
  have hdone : (t.session q).disposalDone = (s.session q).disposalDone := h.talk (.session .disposalDone) (by decide) q
  have hmail : t.dirMail = s.dirMail := h.talk .dirMail (by decide)
  have hrst' : t.rstLow = s.rstLow := h.talk .rstLow (by decide)
  have hann := h.annCopy q
  show t.PortTeardown q
  by_cases he : q = p
  · subst he
    rw [bne_self_eq_false, Bool.and_false] at hann
    have hone := hq.one hrst fun hz => by simpa [h.announced] using (State.tokens_zero_iff.mp hz).1
    have hclosing := hq.closing (by omega)
    simp only [State.teardownTokens, h.announced, Bool.toNat_true] at hone
    have howed : sel s.copy.owed q = false := by
      by_contra hne; rw [(Bool.not_eq_false _).mp hne, Bool.toNat_true] at hone; omega
    have hgone : (s.session q).jobGone = false := by
      by_contra hne; rw [(Bool.not_eq_false _).mp hne, Bool.toNat_true] at hone; omega
    have htokens : (sel t.copy.owed q).toNat + (t.session q).jobGone.toNat = 1 := by
      rcases h.outcome with ⟨-, ho, -, hg⟩ | ⟨hg, ⟨-, ho, -⟩ | ⟨-, ho, -⟩⟩ <;> rw [ho, hg q] <;> simp [howed, hgone]
    refine ⟨fun _ _ => ?_, fun hnot => ?_, fun hstep => ?_, fun hstep => ?_⟩
    · rw [howed, hgone] at hone
      simp only [Bool.toNat_false] at hone
      simp only [State.teardownTokens, hann, hmail, hdone, Bool.toNat_false]
      omega
    · rw [State.isClosing_congr hst, hclosing] at hnot; cases hnot
    · rw [hst] at hstep
      rw [hmail, hdone]
      exact hq.2.2.1 hstep
    · rw [hst] at hstep
      have := (hq.2.2.2 hstep).1
      rw [h.announced] at this
      cases this
  · refine hq.congr hst hrst' (by rw [hann]; simp [he]) ?_ ?_ (by rw [hmail]) hdone
    · rcases h.outcome with ⟨-, ho, -, -⟩ | ⟨-, ⟨-, ho, -⟩ | ⟨-, ho, -⟩⟩ <;> rw [ho] <;> simp [he]
    · rcases h.outcome with ⟨-, -, -, hg⟩ | ⟨hg, -⟩ <;> rw [hg q]
      simp [he]

theorem EngineMove.keeps_teardownLegal {s t : State} (h : EngineMove s t) (hs : s.TeardownLegal) : t.TeardownLegal := by
  cases h with
  | other h => exact teardownLegal_reads s t (fun x hx => h x (by revert x; decide)) hs
  | set h _ =>
    refine teardownLegal_reads s t (fun x hx => ?_) hs
    rcases (by revert x; decide : ∀ x ∈ [Part.session .state, .session .annCopy, .session .jobGone,
      .session .disposalDone, .owed, .dirMail, .rstLow], x ∈ talkParts ∨ x = .session .jobGone ∨ x = .owed) x hx
      with hx | rfl | rfl
    · exact h.talk x hx
    · exact h.jobGone
    · exact h.owed
  | ended hrst h _ => exact h.keeps_teardownLegal hrst hs
  | closing hrst h => exact h.keeps_teardownLegal hrst hs

end Sys2Proof.Machine
end

section
/-! SUPPORT. The rings, the current job and its descriptor: what each move of the sessions and of the Copy Engine leaves of
them (R99, R104, R113, R124). -/

namespace Sys2Proof.Machine

/-! ## Rings of closed ports -/

theorem closedRingsUnset_reads :
    ReadsOnly State.ClosedRingsUnset [.session .state, .session .annCopy, .rstLow, .rings] := fun s t h hs p => by
  have hst : (t.session p).state = (s.session p).state := h (.session .state) (by decide) p
  have hann : (t.session p).annCopy = (s.session p).annCopy := h (.session .annCopy) (by decide) p
  have hrst : t.rstLow = s.rstLow := h .rstLow (by decide)
  have hrings : t.copy.rings = s.copy.rings := h .rings (by decide)
  have hring : t.ring p = s.ring p := by simp only [State.ring, hrings]
  rw [hst, hann, hrst, hring]
  exact hs p

theorem SessionMove.keeps_closedRings {gone : Port → Prop} {s t : State} (h : SessionMove gone s t) (hs : s.ClosedRingsUnset) :
    t.ClosedRingsUnset := by
  cases h
  case other h => exact closedRingsUnset_reads.keep h rfl hs
  case close p rejoin _ =>
    intro q hne hrst hann
    by_cases he : q = p
    · subst he
      rw [State.enterClosing_session_same] at hann
      cases hann
    · rw [State.enterClosing_session_of_ne _ _ he] at hne hann
      exact hs q hne hrst hann
  case rejoin p old new step hclosing =>
    intro q hne hrst hann
    rw [State.setSession_session] at hne hann
    split at hann
    · subst q
      exact hs p (by rw [hclosing]; nofun) hrst hann
    · rename_i he
      rw [if_neg he] at hne
      exact hs q hne hrst hann
  case enter p _ =>
    intro q hne hrst hann
    by_cases he : q = p
    · subst he
      rw [State.enterUp_session_same] at hne
      exact absurd rfl hne
    · rw [State.enterUp_session_of_ne _ he] at hne hann
      exact hs q hne hrst hann
  case taken p rest _ => exact hs
  case jobGone p rejoin _ hclosing _ =>
    intro q hne hrst hann
    rw [State.setDirMail_session, State.setSession_session] at hne hann
    split at hann
    · subst q
      exact hs p (by rw [hclosing]; nofun) hrst hann
    · rename_i he
      rw [if_neg he] at hne
      exact hs q hne hrst hann
  case disposed p rest _ _ _ _ =>
    refine closedRingsUnset_reads.keep (s.setDirMail_changes rest) rfl hs |> fun h => ?_
    exact closedRingsUnset_reads.keep (State.setDisposalDone_changes (s.setDirMail rest) p true) rfl h
  case complete p rejoin _ hclosing _ _ =>
    intro q hne hrst hann
    rw [State.setSession_session] at hne hann
    split at hann
    · subst q
      exact hs p (by rw [hclosing]; nofun) hrst hann
    · rename_i he
      rw [if_neg he] at hne
      exact hs q hne hrst hann

theorem State.ring_of_put {s t : State} {p : Port} {g : Ring} (h : t.copy.rings = put s.copy.rings p g) (q : Port) :
    t.ring q = if q = p then g else s.ring q := by
  rw [State.ring, h, sel_put]
  rfl

/-- A ring of a closed port that is written stays UNSET. -/
theorem SetReason.keeps_unset {s : State} {p : Port} {g : Ring} {e : EngineState} (h : SetReason s p g e)
    (hdown : (s.session p).state ≠ .up) (hunset : s.ring p = Ring.unset) : g = Ring.unset := by
  cases h with
  | fetched _ _ _ _ _ => rw [hunset]; rfl
  | goesOn _ _ _ _ _ => exact hunset
  | setup hup _ _ _ _ => exact absurd hup hdown
  | turned hup _ _ => exact absurd hup hdown
  | noted hup _ _ => exact absurd hup hdown
  | stopping hup _ _ => exact absurd hup hdown
  | teardown hup _ => exact absurd hup hdown
  | selected hup _ _ _ => exact absurd hup hdown

theorem EndReason.keeps_unset {s : State} {p : Port} {g : Ring} (h : EndReason s p g) (hunset : s.ring p = Ring.unset) :
    g = Ring.unset := by
  cases h with
  | empty _ _ => rw [hunset]; rfl
  | written _ _ => rw [hunset]; rfl
  | returned _ _ => rw [hunset]; rfl
  | abandoned _ _ => exact hunset

theorem EngineMove.keeps_closedRings {s t : State} (h : EngineMove s t) (hs : s.ClosedRingsUnset) :
    t.ClosedRingsUnset := by
  cases h with
  | other h => exact closedRingsUnset_reads s t (fun x hx => h x (by revert x; decide)) hs
  | @set p g e h hwhy =>
    intro q hne hrst hann
    have hst : (t.session q).state = (s.session q).state := h.talk (.session .state) (by decide) q
    have hann' : (t.session q).annCopy = (s.session q).annCopy := h.talk (.session .annCopy) (by decide) q
    have hrst' : t.rstLow = s.rstLow := h.talk .rstLow (by decide)
    have hq := hs q (hst ▸ hne) (hrst' ▸ hrst) (hann' ▸ hann)
    rw [State.ring_of_put h.rings]
    split
    · subst q; exact hwhy.keeps_unset (hst ▸ hne) hq
    · exact hq
  | @ended p g _ h hwhy =>
    intro q hne hrst hann
    have hst : (t.session q).state = (s.session q).state := h.talk (.session .state) (by decide) q
    have hann' : (t.session q).annCopy = (s.session q).annCopy := h.talk (.session .annCopy) (by decide) q
    have hrst' : t.rstLow = s.rstLow := h.talk .rstLow (by decide)
    have hq := hs q (hst ▸ hne) (hrst' ▸ hrst) (hann' ▸ hann)
    rw [State.ring_of_put h.rings]
    split
    · subst q; exact hwhy.keeps_unset hq
    · exact hq
  | @closing p _ h =>
    intro q hne hrst hann
    have hst : (t.session q).state = (s.session q).state := h.talk (.session .state) (by decide) q
    have hrst' : t.rstLow = s.rstLow := h.talk .rstLow (by decide)
    rw [State.ring_of_put h.rings]
    split
    · rfl
    · rename_i he
      have hann' := h.annCopy q
      rw [hann, bne_iff_ne.mpr he, Bool.and_true] at hann'
      exact hs q (hst ▸ hne) (hrst' ▸ hrst) hann'.symm

/-! ## The engine's port -/

theorem State.jobCurrent_of_engine {s t : State} (h : t.copy.engine = s.copy.engine) (q : Port) :
    t.jobCurrent q = s.jobCurrent q := by
  simp only [State.jobCurrent, h]

theorem State.fetchInProgress_of_engine {s t : State} (h : t.copy.engine = s.copy.engine) (q : Port) :
    t.fetchInProgress q = s.fetchInProgress q := by
  simp only [State.fetchInProgress, h]

theorem State.jobCurrent_of_fetch {s : State} {q : Port} (h : s.fetchInProgress q = true) : s.jobCurrent q = true := by
  obtain ⟨j, he, hp⟩ := State.fetchInProgress_iff.mp h
  exact State.jobCurrent_iff.mpr ⟨j, by rw [he]; rfl, hp⟩

/-- The job that is current is one port's. -/
theorem State.eq_of_jobCurrent {s : State} {p q : Port} (hp : s.copy.engine.port? = some p)
    (hq : s.jobCurrent q = true) : q = p := by
  simp only [State.jobCurrent, hp, beq_iff_eq, Option.some.injEq] at hq
  exact hq.symm

theorem State.jobCurrent_of_port {s : State} {p : Port} (hp : s.copy.engine.port? = some p) : s.jobCurrent p = true := by
  simp [State.jobCurrent, hp]

theorem EngineState.port?_of_place {e : EngineState} {j : JobPlace} (h : e.place? = some j) : e.port? = some j.port := by
  rw [← EngineState.place?_port, h]
  rfl

/-- A write of the engine's state is its port's: the job of no other port is current before it. -/
theorem SetReason.engine_cases {s : State} {p : Port} {g : Ring} {e : EngineState} (h : SetReason s p g e) :
    e = s.copy.engine ∨ (∀ q, s.jobCurrent q = true → q = p) ∧ e.port? = some p := by
  cases h with
  | selected _ hfree _ _ =>
    refine .inr ⟨fun q hq => ?_, rfl⟩
    simp [State.jobCurrent, hfree, EngineState.port?] at hq
  | fetched he hp hplace _ _ =>
    refine .inr ⟨fun q hq => State.eq_of_jobCurrent (by rw [he, ← hp]; rfl) hq, ?_⟩
    rw [EngineState.port?_of_place hplace, hp]
  | goesOn _ hport hplace _ _ =>
    refine .inr ⟨fun q hq => State.eq_of_jobCurrent hport hq, ?_⟩
    rw [← EngineState.place?_port, hplace, EngineState.place?_port, hport]
  | _ => exact .inl rfl

theorem EndReason.port {s : State} {p : Port} {g : Ring} (h : EndReason s p g) : s.copy.engine.port? = some p := by
  cases h with
  | empty he hp => rw [he, ← hp]; rfl
  | written he hp => rw [he, ← hp]; rfl
  | returned hport _ => exact hport
  | abandoned hport _ => exact hport

/-- A job that is current stays current while the engine's state is written. -/
theorem EngineSet.jobCurrent {s t : State} {p : Port} {g : Ring} {e : EngineState} (h : EngineSet s t p g e)
    (hwhy : SetReason s p g e) {q : Port} (hq : s.jobCurrent q = true) : t.jobCurrent q = true := by
  rcases hwhy.engine_cases with rfl | ⟨hone, hport⟩
  · rwa [State.jobCurrent_of_engine h.engine]
  · rw [hone q hq]
    exact State.jobCurrent_of_port (by rw [h.engine, hport])

/-! ## The rings -/

/-- What the ring record of one port must satisfy (R99, R104). -/
def State.PortRing (s : State) (p : Port) : Prop :=
  ((s.ring p).config = none → s.ring p = Ring.unset) ∧
    ∀ c ∈ (s.ring p).config,
      (s.ring p).state ≠ .unset ∧ ringFits c.base c.size = true ∧ (s.ring p).head < c.size ∧
        ((s.ring p).kickNoted = true → s.fetchInProgress p = true) ∧
        ((s.ring p).state = .stopping → (s.session p).state = .up → s.rstLow = false → s.jobCurrent p = true)

theorem State.ringsLegal_iff {s : State} : s.RingsLegal ↔ ∀ p, s.PortRing p := Iff.rfl

theorem State.PortRing.of_unset {s : State} {p : Port} (h : s.ring p = Ring.unset) : s.PortRing p := by
  unfold State.PortRing
  rw [h]
  exact ⟨fun _ => rfl, nofun⟩

/-- A ring record that is as it was, where its fetch and its job go on if they did. -/
theorem State.PortRing.congr {s t : State} {p : Port} (hs : s.PortRing p) (hring : t.ring p = s.ring p)
    (hup : (t.session p).state = .up → (s.session p).state = .up) (hrst : t.rstLow = s.rstLow)
    (hfetch : (s.ring p).kickNoted = true → s.fetchInProgress p = true → t.fetchInProgress p = true)
    (hjob : s.jobCurrent p = true → t.jobCurrent p = true) : t.PortRing p := by
  unfold State.PortRing
  rw [hring, hrst]
  refine ⟨hs.1, fun c hc => ?_⟩
  obtain ⟨hne, hfits, hhead, hkick, hstop⟩ := hs.2 c hc
  exact ⟨hne, hfits, hhead, fun hk => hfetch hk (hkick hk), fun hst hu hr => hjob (hstop hst (hup hu) hr)⟩

theorem ringsLegal_reads : ReadsOnly State.RingsLegal [.rings, .engine, .session .state, .rstLow] := fun s t h hs p => by
  have hrings : t.copy.rings = s.copy.rings := h .rings (by decide)
  have heng : t.copy.engine = s.copy.engine := h .engine (by decide)
  have hst : (t.session p).state = (s.session p).state := h (.session .state) (by decide) p
  refine State.PortRing.congr (hs p) (by simp only [State.ring, hrings]) (fun hu => hst ▸ hu) (h .rstLow (by decide)) ?_ ?_
  · rw [State.fetchInProgress_of_engine heng]; exact fun _ h => h
  · rw [State.jobCurrent_of_engine heng]; exact fun h => h

/-- Ports that are not CLOSING owe no report. -/
theorem State.PortTeardown.owed_of_up {s : State} {p : Port} (hs : s.PortTeardown p) (hup : (s.session p).state = .up) :
    sel s.copy.owed p = false := (hs.tokens_of_not_closing (State.isClosing_of_up hup)).2.1

theorem SessionMove.keeps_ringsLegal {gone : Port → Prop} {s t : State} (h : SessionMove gone s t) (hclosed : s.ClosedRingsUnset)
    (ht : s.TeardownLegal) (hs : s.RingsLegal) : t.RingsLegal := by
  have hc := h.changes
  have hrings : t.copy.rings = s.copy.rings := hc.same .rings rfl
  have heng : t.copy.engine = s.copy.engine := hc.same .engine rfl
  have hrst : t.rstLow = s.rstLow := hc.same .rstLow rfl
  intro q
  have hring : t.ring q = s.ring q := by simp only [State.ring, hrings]
  have keep (hup : (t.session q).state = .up → (s.session q).state = .up) : t.PortRing q :=
    State.PortRing.congr (hs q) hring hup hrst (by rw [State.fetchInProgress_of_engine heng]; exact fun _ h => h)
      (by rw [State.jobCurrent_of_engine heng]; exact fun h => h)
  cases h
  case other h =>
    refine keep fun hu => ?_
    rwa [← (h.same (.session .state) rfl q : _ = _)]
  case enter p hdown =>
    by_cases he : q = p
    · subst he
      cases hr : s.rstLow with
      | true =>
        obtain ⟨hnone, hsome⟩ := hs q
        refine ⟨hnone, fun c hcfg => ?_⟩
        obtain ⟨hne, hfits, hhead, hkick, -⟩ := hsome c hcfg
        exact ⟨hne, hfits, hhead, hkick, fun _ _ hlow => absurd (hr.symm.trans hlow) nofun⟩
      | false =>
        have hann := (State.PortTeardown.tokens_of_not_closing (ht q) (State.isClosing_of_down hdown)).1
        exact State.PortRing.of_unset (hring.trans (hclosed q (by rw [hdown]; nofun) hr hann))
    · exact keep fun hu => by rwa [State.enterUp_session_of_ne _ he] at hu
  case close p rejoin hup =>
    refine keep fun hu => ?_
    by_cases he : q = p
    · subst he; exact hup
    · rwa [State.enterClosing_session_of_ne _ _ he] at hu
  case taken p rest _ => exact keep fun hu => hu
  case disposed p rest _ _ _ _ =>
    refine keep fun hu => ?_
    rw [State.setSession_session] at hu
    split at hu
    · subst q; exact hu
    · exact hu
  case jobGone p rejoin _ _ _ =>
    refine keep fun hu => ?_
    rw [State.setDirMail_session, State.setSession_session] at hu
    split at hu
    · cases hu
    · exact hu
  all_goals
    refine keep fun hu => ?_
    rw [State.setSession_session] at hu
    split at hu
    · cases hu
    · exact hu

theorem ringFits_size_pos {b n : Nat} (h : ringFits b n = true) : 0 < n := by
  simp [ringFits, ringSizes] at h
  omega

theorem EngineMove.keeps_ringsLegal {s t : State} (h : EngineMove s t) (hp : s.JobPlacesLegal) (hs : s.RingsLegal) :
    t.RingsLegal := by
  cases h with
  | other h => exact ringsLegal_reads s t (fun x hx => h x (by revert x; decide)) hs
  | @set p g e h hwhy =>
    intro q
    have hst : (t.session q).state = (s.session q).state := h.talk (.session .state) (by decide) q
    have hrst : t.rstLow = s.rstLow := h.talk .rstLow (by decide)
    have hring := State.ring_of_put h.rings q
    show t.PortRing q
    by_cases hq : q = p
    · subst hq
      rw [if_pos rfl] at hring
      obtain ⟨hnone, hsome⟩ := hs q
      have hjob (hc : s.jobCurrent q = true) : t.jobCurrent q = true := h.jobCurrent hwhy hc
      have heng := h.engine
      cases hwhy with
      | setup hup hunset hfits howner howned =>
        unfold State.PortRing
        rw [hring]
        refine ⟨nofun, fun c hc => ?_⟩
        cases hc
        exact ⟨nofun, hfits, ringFits_size_pos hfits, nofun, nofun⟩
      | turned hup hold hnew =>
        unfold State.PortRing
        rw [hring]
        refine ⟨fun hc => ?_, fun c hc => ?_⟩
        · rw [hnone hc] at hold
          rcases hold with h | h | ⟨h, -⟩ <;> cases h
        · obtain ⟨-, hfits, hhead, hkick, -⟩ := hsome c hc
          refine ⟨?_, hfits, hhead, fun hk => ?_, fun hstop => ?_⟩
          · rcases hnew with rfl | rfl <;> nofun
          · rw [State.fetchInProgress_of_engine heng]; exact hkick hk
          · rcases hnew with rfl | rfl <;> cases hstop
      | noted hup hactive hfetch =>
        unfold State.PortRing
        rw [hring]
        refine ⟨fun hc => ?_, fun c hc => ?_⟩
        · rw [hnone hc] at hactive; cases hactive
        · obtain ⟨hne, hfits, hhead, -, -⟩ := hsome c hc
          exact ⟨hne, hfits, hhead, fun _ => by rwa [State.fetchInProgress_of_engine heng],
            fun hstop => absurd (hactive.symm.trans hstop) nofun⟩
      | stopping hup hactive hcur =>
        unfold State.PortRing
        rw [hring]
        refine ⟨fun hc => ?_, fun c hc => ?_⟩
        · rw [hnone hc] at hactive; cases hactive
        · obtain ⟨-, hfits, hhead, -, -⟩ := hsome c hc
          exact ⟨nofun, hfits, hhead, nofun, fun _ _ _ => hjob hcur⟩
      | teardown hup hold => exact State.PortRing.of_unset hring
      | selected hup hfree hactive hcfg =>
        refine State.PortRing.congr (hs q) hring (fun hu => hst ▸ hu) hrst (fun _ _ => ?_) hjob
        exact State.fetchInProgress_iff.mpr ⟨_, heng, rfl⟩
      | fetched he hport hplace hnew hjobs =>
        unfold State.PortRing
        rw [hring]
        refine ⟨fun hc => by rw [hnone hc]; rfl, fun c hc => ?_⟩
        obtain ⟨hne, hfits, hhead, -, -⟩ := hsome c hc
        refine ⟨hne, hfits, hhead, nofun, fun _ _ _ => State.jobCurrent_of_port ?_⟩
        rw [heng, EngineState.port?_of_place hplace, hport]
      | goesOn hold hport hplace hnew hjobs =>
        refine State.PortRing.congr (hs q) hring (fun hu => hst ▸ hu) hrst (fun _ hf => ?_) hjob
        obtain ⟨j, he, -⟩ := State.fetchInProgress_iff.mp hf
        exact absurd he (hold j)
    · rw [if_neg hq] at hring
      refine State.PortRing.congr (hs q) hring (fun hu => hst ▸ hu) hrst (fun _ hf => ?_) (h.jobCurrent hwhy)
      rcases hwhy.engine_cases with rfl | ⟨hone, -⟩
      · rwa [State.fetchInProgress_of_engine h.engine]
      · exact absurd (hone q (State.jobCurrent_of_fetch hf)) hq
  | @ended p g _ h hwhy =>
    intro q
    have hst : (t.session q).state = (s.session q).state := h.talk (.session .state) (by decide) q
    have hrst : t.rstLow = s.rstLow := h.talk .rstLow (by decide)
    have hring := State.ring_of_put h.rings q
    have hport := hwhy.port
    show t.PortRing q
    by_cases hq : q = p
    · subst hq
      rw [if_pos rfl] at hring
      obtain ⟨hnone, hsome⟩ := hs q
      cases hwhy with
      | empty he _ =>
        unfold State.PortRing
        rw [hring]
        refine ⟨fun hc => ?_, fun c hc => ?_⟩
        · have hc' : (s.ring q).config = none := by
            revert hc; unfold Ring.afterEmptyFetch; split <;> exact fun h => h
          rw [hnone hc']; rfl
        · have hc' : c ∈ (s.ring q).config := by
            revert hc; unfold Ring.afterEmptyFetch; split <;> exact fun h => h
          obtain ⟨hne, hfits, hhead, -, -⟩ := hsome c hc'
          unfold Ring.afterEmptyFetch
          split
          · refine ⟨?_, hfits, hhead, nofun, fun hstop => ?_⟩
            · dsimp only; split <;> nofun
            · revert hstop; dsimp only; split <;> nofun
          · exact ⟨nofun, hfits, hhead, nofun, nofun⟩
          · exact ⟨hne, hfits, hhead, nofun, fun hstop => absurd hstop ‹_›⟩
      | @written w he _ =>
        unfold State.PortRing
        rw [hring]
        cases hcfg : (s.ring q).config with
        | none =>
          rw [hnone hcfg]
          exact ⟨fun _ => rfl, nofun⟩
        | some c =>
          obtain ⟨hne, hfits, hhead, hkick, -⟩ := hsome c hcfg
          have hpos := ringFits_size_pos hfits
          simp only [Ring.afterWriteBack, hcfg]
          refine ⟨nofun, fun c' hc' => ?_⟩
          cases hc'
          refine ⟨?_, hfits, ?_, fun hk => ?_, fun hstop => ?_⟩
          · split <;> nofun
          · split <;> omega
          · obtain ⟨j, hj, -⟩ := State.fetchInProgress_iff.mp (hkick hk)
            rw [he] at hj
            cases hj
          · revert hstop; split <;> nofun
      | returned _ hdown =>
        unfold State.PortRing
        rw [hring]
        refine ⟨fun hc => by rw [hnone hc]; rfl, fun c hc => ?_⟩
        obtain ⟨hne, hfits, hhead, -, -⟩ := hsome c hc
        exact ⟨hne, hfits, hhead, nofun, fun _ hu => absurd (hst ▸ hu) hdown⟩
      | abandoned _ hdown =>
        rcases hdown with ⟨hdown, hnot⟩ | howed
        · unfold State.PortRing
          rw [hring]
          refine ⟨hnone, fun c hc => ?_⟩
          obtain ⟨hne, hfits, hhead, hkick, -⟩ := hsome c hc
          refine ⟨hne, hfits, hhead, fun hk => ?_, fun _ hu => absurd (hst ▸ hu) hdown⟩
          obtain ⟨j, hj, -⟩ := State.fetchInProgress_iff.mp (hkick hk)
          exact absurd hj (hnot j)
        · exact State.PortRing.of_unset (hring.trans (hp.2 q howed).2)
    · rw [if_neg hq] at hring
      refine State.PortRing.congr (hs q) hring (fun hu => hst ▸ hu) hrst (fun _ hf => ?_) fun hj => ?_
      · exact absurd (State.eq_of_jobCurrent hport (State.jobCurrent_of_fetch hf)) hq
      · exact absurd (State.eq_of_jobCurrent hport hj) hq
  | @closing p _ h =>
    intro q
    have hst : (t.session q).state = (s.session q).state := h.talk (.session .state) (by decide) q
    have hrst : t.rstLow = s.rstLow := h.talk .rstLow (by decide)
    have hring := State.ring_of_put h.rings q
    show t.PortRing q
    by_cases hq : q = p
    · rw [if_pos hq] at hring
      exact State.PortRing.of_unset hring
    · rw [if_neg hq] at hring
      have hcases : t.copy.engine = s.copy.engine ∨ s.jobCurrent p = true := by
        rcases h.outcome with ⟨he, -⟩ | ⟨-, ⟨he, -⟩ | ⟨-, -, hj⟩⟩
        · exact .inl he
        · exact .inl he
        · exact .inr hj
      rcases hcases with he | hj
      · refine State.PortRing.congr (hs q) hring (fun hu => hst ▸ hu) hrst ?_ ?_
        · rw [State.fetchInProgress_of_engine he]; exact fun _ h => h
        · rw [State.jobCurrent_of_engine he]; exact fun h => h
      · have hport : s.copy.engine.port? = some p := by simpa [State.jobCurrent] using hj
        refine State.PortRing.congr (hs q) hring (fun hu => hst ▸ hu) hrst (fun _ hf => ?_) fun hj => ?_
        · exact absurd (State.eq_of_jobCurrent hport (State.jobCurrent_of_fetch hf)) hq
        · exact absurd (State.eq_of_jobCurrent hport hj) hq

end Sys2Proof.Machine
end

section
/-! SUPPORT. The current job and its descriptor, and every command's keeping of the teardown and the Copy Engine. -/

namespace Sys2Proof.Machine

/-! ## Where the current job lies -/

/-- The ring of the current job agrees with it, or its report is owed (R99, R124). -/
def State.PlaceAgrees (s : State) (j : JobPlace) : Prop :=
  ((s.ring j.port).config = none → sel s.copy.owed j.port = true) ∧
    ∀ c ∈ (s.ring j.port).config,
      ((s.ring j.port).state = .active ∨ (s.ring j.port).state = .stopping) ∧ j.ringFrame = c.frame ∧
        j.index = (s.ring j.port).head ∧ j.offset = c.base + (s.ring j.port).head * 32

theorem State.jobPlacesLegal_iff {s : State} : s.JobPlacesLegal ↔
    (∀ j ∈ s.copy.engine.place?, s.PlaceAgrees j) ∧
      ∀ p, sel s.copy.owed p = true → s.jobCurrent p = true ∧ s.ring p = Ring.unset := Iff.rfl

theorem jobPlacesLegal_reads : ReadsOnly State.JobPlacesLegal [.rings, .engine, .owed] := fun s t h hs => by
  have hrings : t.copy.rings = s.copy.rings := h .rings (by decide)
  have heng : t.copy.engine = s.copy.engine := h .engine (by decide)
  have howed : t.copy.owed = s.copy.owed := h .owed (by decide)
  simp only [State.JobPlacesLegal, State.ring, State.jobCurrent, hrings, heng, howed]
  exact hs

/-- A ring with a job current that is written agrees with the job still. -/
theorem State.PlaceAgrees.congr {s t : State} {j : JobPlace} (hs : s.PlaceAgrees j)
    (hconfig : (t.ring j.port).config = (s.ring j.port).config) (hhead : (t.ring j.port).head = (s.ring j.port).head)
    (howed : sel t.copy.owed j.port = sel s.copy.owed j.port)
    (hst : (s.ring j.port).state = .active ∨ (s.ring j.port).state = .stopping →
      (t.ring j.port).state = .active ∨ (t.ring j.port).state = .stopping) : t.PlaceAgrees j := by
  unfold State.PlaceAgrees
  rw [hconfig, hhead, howed]
  refine ⟨hs.1, fun c hc => ?_⟩
  obtain ⟨hstate, hrest⟩ := hs.2 c hc
  exact ⟨hst hstate, hrest⟩

/-- The ring of a current job whose port owes no report is ACTIVE or STOPPING. -/
theorem State.PlaceAgrees.active {s : State} {j : JobPlace} (hs : s.PlaceAgrees j)
    (howed : sel s.copy.owed j.port = false) :
    ∃ c, (s.ring j.port).config = some c ∧
      ((s.ring j.port).state = .active ∨ (s.ring j.port).state = .stopping) := by
  cases hc : (s.ring j.port).config with
  | none => rw [hs.1 hc] at howed; cases howed
  | some c => exact ⟨c, rfl, (hs.2 c hc).1⟩

theorem EngineSet.keeps_jobPlaces {s t : State} {p : Port} {g : Ring} {e : EngineState} (h : EngineSet s t p g e)
    (hwhy : SetReason s p g e) (ht : s.TeardownLegal) (hs : s.JobPlacesLegal) :
    t.JobPlacesLegal := by
  rw [State.jobPlacesLegal_iff] at hs ⊢
  obtain ⟨hplace, howed⟩ := hs
  have hring := State.ring_of_put h.rings
  have notOwed (hup : (s.session p).state = .up) : sel s.copy.owed p = false := State.PortTeardown.owed_of_up (ht p) hup
  refine ⟨fun j hj => ?_, fun q hq => ?_⟩
  · rw [h.engine] at hj
    by_cases hp : j.port = p
    · have hgp : t.ring j.port = g := by rw [hring, if_pos hp]
      have same (hj' : j ∈ s.copy.engine.place?) (hconfig : g.config = (s.ring p).config) (hhead : g.head = (s.ring p).head)
          (hst : (s.ring p).state = .active ∨ (s.ring p).state = .stopping → g.state = .active ∨ g.state = .stopping) :
          t.PlaceAgrees j := by
        refine (hplace j hj').congr ?_ ?_ (by rw [h.owed]) ?_ <;> rw [hgp, hp] <;> assumption
      have active (hup : (s.session p).state = .up) (hj' : j ∈ s.copy.engine.place?) :
          (s.ring p).state = .active ∨ (s.ring p).state = .stopping := by
        obtain ⟨-, -, hst⟩ := (hplace j hj').active (by rw [hp]; exact notOwed hup)
        rwa [hp] at hst
      cases hwhy with
      | setup hup hunset _ _ _ =>
        have := active hup hj
        rw [hunset] at this
        rcases this with h | h <;> cases h
      | turned hup hold hnew =>
        refine same hj rfl rfl fun hst => ?_
        rcases hold with h | h | ⟨-, hcur⟩
        · rw [h] at hst; rcases hst with h | h <;> cases h
        · rw [h] at hst; rcases hst with h | h <;> cases h
        · have hj' : s.jobCurrent p = true := State.jobCurrent_iff.mpr ⟨j, hj, hp⟩
          rw [hcur] at hj'
          cases hj'
      | noted _ _ _ => exact same hj rfl rfl id
      | stopping _ _ _ => exact same hj rfl rfl fun _ => .inr rfl
      | teardown hup hold =>
        have := active hup hj
        rcases hold with h | h <;> rw [h] at this <;> rcases this with h | h <;> cases h
      | @selected c _ _ hactive hc =>
        cases hj
        unfold State.PlaceAgrees
        rw [show t.ring ((s.ring p).place c p).port = s.ring p from hgp]
        refine ⟨fun hnone => ?_, fun c' hc' => ?_⟩
        · rw [hc] at hnone; cases hnone
        · rw [Option.mem_def, hc] at hc'
          cases hc'
          exact ⟨.inl hactive, rfl, rfl, rfl⟩
      | fetched he _ hplace' _ _ =>
        refine same ?_ rfl rfl id
        rw [he]
        exact hplace'.symm.trans hj
      | goesOn _ _ hplace' _ _ => exact same (hplace' ▸ hj) rfl rfl id
    · rcases hwhy.engine_cases with rfl | ⟨-, hport⟩
      · have hgj : t.ring j.port = s.ring j.port := by rw [hring, if_neg hp]
        exact (hplace j hj).congr (by rw [hgj]) (by rw [hgj]) (by rw [h.owed]) (by rw [hgj]; exact id)
      · rw [EngineState.port?_of_place hj] at hport
        exact absurd (Option.some.inj hport) hp
  · rw [h.owed] at hq
    obtain ⟨hjob, hunset⟩ := howed q hq
    refine ⟨h.jobCurrent hwhy hjob, ?_⟩
    rw [hring]
    split
    · subst q
      cases hwhy with
      | fetched _ _ _ _ _ => rw [hunset]; rfl
      | goesOn _ _ _ _ _ => exact hunset
      | setup hup _ _ _ _ => rw [notOwed hup] at hq; cases hq
      | turned hup _ _ => rw [notOwed hup] at hq; cases hq
      | noted hup _ _ => rw [notOwed hup] at hq; cases hq
      | stopping hup _ _ => rw [notOwed hup] at hq; cases hq
      | teardown _ _ => rfl
      | selected hup _ _ _ => rw [notOwed hup] at hq; cases hq
    · exact hunset

theorem EngineMove.keeps_jobPlaces {s t : State} (h : EngineMove s t) (ht : s.TeardownLegal)
    (hs : s.JobPlacesLegal) : t.JobPlacesLegal := by
  cases h with
  | other h => exact jobPlacesLegal_reads s t (fun x hx => h x (by revert x; decide)) hs
  | set h hwhy => exact h.keeps_jobPlaces hwhy ht hs
  | @ended p g _ h hwhy =>
    rw [State.jobPlacesLegal_iff] at hs ⊢
    refine ⟨fun j hj => ?_, fun q hq => ?_⟩
    · rw [h.engine] at hj
      cases hj
    · rw [h.owed, sel_put] at hq
      split at hq
      · cases hq
      · exact absurd (State.eq_of_jobCurrent hwhy.port (hs.2 q hq).1) ‹_›
  | @closing p _ h =>
    rw [State.jobPlacesLegal_iff] at hs ⊢
    obtain ⟨hplace, howed⟩ := hs
    have hring := State.ring_of_put h.rings
    have other {j : JobPlace} (hj : j ∈ s.copy.engine.place?) (hne : j.port ≠ p)
        (ho : sel t.copy.owed j.port = sel s.copy.owed j.port) : t.PlaceAgrees j := by
      have hgj : t.ring j.port = s.ring j.port := by rw [hring, if_neg hne]
      exact (hplace j hj).congr (by rw [hgj]) (by rw [hgj]) ho (by rw [hgj]; exact id)
    rcases h.outcome with ⟨he, ho, hjob, -⟩ | ⟨-, ⟨he, ho, hjob⟩ | ⟨he, ho, hjob⟩⟩
    · refine ⟨fun j hj => ?_, fun q hq => ?_⟩
      · rw [he] at hj
        by_cases hp : j.port = p
        · unfold State.PlaceAgrees
          rw [hring, if_pos hp, ho, hp, sel_put_same]
          exact ⟨fun _ => rfl, nofun⟩
        · exact other hj hp (by rw [ho, sel_put_of_ne _ _ _ _ hp])
      · rw [State.jobCurrent_of_engine he, hring]
        split
        · subst q; exact ⟨hjob, rfl⟩
        · rw [ho, sel_put_of_ne _ _ _ _ ‹_›] at hq
          exact howed q hq
    · refine ⟨fun j hj => ?_, fun q hq => ?_⟩
      · rw [he] at hj
        refine other hj (fun hp => ?_) (by rw [ho])
        rw [State.jobCurrent_iff.mpr ⟨j, hj, hp⟩] at hjob
        cases hjob
      · rw [ho] at hq
        rw [State.jobCurrent_of_engine he, hring]
        split
        · exact ⟨(howed q hq).1, rfl⟩
        · exact howed q hq
    · refine ⟨fun j hj => ?_, fun q hq => ?_⟩
      · rw [he] at hj; cases hj
      · rw [ho, sel_put] at hq
        split at hq
        · cases hq
        · have hport : s.copy.engine.port? = some p := by simpa [State.jobCurrent] using hjob
          exact absurd (State.eq_of_jobCurrent hport (howed q hq).1) ‹_›

/-! ## The current job -/

theorem jobsLegal_reads : ReadsOnly State.JobsLegal [.engine] := fun s t h hs => by
  have heng : t.copy.engine = s.copy.engine := h .engine (by decide)
  simp only [State.JobsLegal, heng]
  exact hs

theorem State.JobsLegal.of_free {t : State} (h : t.copy.engine = .free) : t.JobsLegal := by
  unfold State.JobsLegal
  rw [h]
  exact ⟨nofun, nofun⟩

/-- A descriptor of a ring that fits its frame lies inside the frame (R99, R102). -/
theorem ringFits_descriptor {b n k : Nat} (h : ringFits b n = true) (hk : k < n) : b + k * 32 + 32 ≤ 4096 := by
  simp only [ringFits, Bool.and_eq_true, decide_eq_true_eq] at h
  have hframe : Config.frameBytes = 4096 := rfl
  omega

theorem EngineMove.keeps_jobsLegal {s t : State} (h : EngineMove s t) (hr : s.RingsLegal) (hs : s.JobsLegal) :
    t.JobsLegal := by
  cases h with
  | other h => exact jobsLegal_reads s t (fun x hx => h x (by revert x; decide)) hs
  | @set p g e h hwhy =>
    have heng := h.engine
    have same (he : e = s.copy.engine) : t.JobsLegal := by
      unfold State.JobsLegal
      rw [heng, he]
      exact hs
    obtain ⟨hjobs, hplaces⟩ := hs
    cases hwhy with
    | @selected c _ _ _ hc =>
      unfold State.JobsLegal
      rw [heng]
      refine ⟨nofun, fun j hj => ?_⟩
      cases hj
      obtain ⟨-, hfits, hhead, -⟩ := (hr p).2 c hc
      exact ringFits_descriptor hfits hhead
    | fetched he _ hplace _ hjob =>
      unfold State.JobsLegal
      rw [heng]
      refine ⟨hjob, fun j hj => hplaces j ?_⟩
      rw [he]
      exact hplace.symm.trans hj
    | goesOn _ _ hplace _ hjob =>
      unfold State.JobsLegal
      rw [heng]
      exact ⟨hjob hjobs, fun j hj => hplaces j (hplace ▸ hj)⟩
    | _ => exact same rfl
  | ended _ h _ => exact .of_free h.engine
  | closing _ h =>
    rcases h.outcome with ⟨he, -⟩ | ⟨-, ⟨he, -⟩ | ⟨he, -⟩⟩
    · exact jobsLegal_reads s t (fun x hx => by rw [List.mem_singleton.mp hx]; exact he) hs
    · exact jobsLegal_reads s t (fun x hx => by rw [List.mem_singleton.mp hx]; exact he) hs
    · exact .of_free he

/-! ## Every command -/

/-- The parts that the teardown and the Copy Engine stand in. -/
def closingsParts : List Part :=
  [.dirMail, .session .state, .closingTaken, .rstLow, .session .annCopy, .session .jobGone, .session .disposalDone, .owed,
    .rings, .engine]

theorem closingsLegal_reads : ReadsOnly State.ClosingsLegal closingsParts := fun s t h hs => by
  have sub {l : List Part} (hl : l ⊆ closingsParts) : ∀ x ∈ l, x.Same s t := fun x hx => h x (hl hx)
  obtain ⟨hv, ht, hc, hr, hp, hj⟩ := hs
  exact ⟨viewLegal_reads s t (sub (by decide)) hv, teardownLegal_reads s t (sub (by decide)) ht,
    closedRingsUnset_reads s t (sub (by decide)) hc, ringsLegal_reads s t (sub (by decide)) hr,
    jobPlacesLegal_reads s t (sub (by decide)) hp, jobsLegal_reads s t (sub (by decide)) hj⟩

theorem SessionMove.keeps_closingsLegal {gone : Port → Prop} (s t : State) (h : SessionMove gone s t)
    (hs : s.ClosingsLegal) : t.ClosingsLegal := by
  obtain ⟨hv, ht, hc, hr, hp, hj⟩ := hs
  exact ⟨h.keeps_viewLegal s t hv, h.keeps_teardownLegal hv ht, h.keeps_closedRings hc, h.keeps_ringsLegal hc ht hr,
    jobPlacesLegal_reads.keep h.changes rfl hp, jobsLegal_reads.keep h.changes rfl hj⟩

theorem EngineMove.keeps_closingsLegal {s t : State} (h : EngineMove s t) (hv' : t.ViewLegal) (hs : s.ClosingsLegal) :
    t.ClosingsLegal := by
  obtain ⟨-, ht, hc, hr, hp, hj⟩ := hs
  exact ⟨hv', h.keeps_teardownLegal ht, h.keeps_closedRings hc, h.keeps_ringsLegal hp hr, h.keeps_jobPlaces ht hp,
    h.keeps_jobsLegal hr hj⟩

/-- RST# asserted abandons every teardown's progress and the current job. -/
theorem State.ClosingsLegal.rstAsserted {s t : State} (h : exec .rstAsserted s = .next t) (hs : s.ClosingsLegal) :
    t.ClosingsLegal := by
  obtain ⟨hv, ht, hc, hr, hp, hj⟩ := hs
  refine ⟨exec_keeps_viewLegal _ s t h hv, ?_⟩
  cases h
  split
  · exact ⟨ht, hc, hr, hp, hj⟩
  · refine ⟨fun p => ⟨fun _ hrst => absurd hrst nofun, fun _ => ?_, fun _ => ?_, fun _ => ?_⟩,
      fun p _ hrst => absurd hrst nofun, fun p => ?_, ⟨nofun, fun p ho => ?_⟩, nofun, nofun⟩
    · rw [State.tokens_zero_iff]
      simp [State.session, SessionRecord.abandoned]
    · simp [State.session, SessionRecord.abandoned]
    · simp [State.session, SessionRecord.abandoned]
    · obtain ⟨hnone, hsome⟩ := hr p
      simp only [State.ring, sel_mapAll] at hnone hsome ⊢
      refine ⟨fun hcfg => by rw [hnone hcfg]; rfl, fun c hcfg => ?_⟩
      obtain ⟨hne, hfits, hhead, -, -⟩ := hsome c hcfg
      exact ⟨hne, hfits, hhead, nofun, fun _ _ hrst => absurd hrst nofun⟩
    · simp at ho

theorem State.atRisingEdge_closingsLegal (s : State) (qmode : Bool) (prst : Vector Bool 4)
    (hv : (s.atRisingEdge qmode prst).ViewLegal) : (s.atRisingEdge qmode prst).ClosingsLegal := by
  have hnot : ∀ p, (s.atRisingEdge qmode prst).isClosing p = false := fun p => by
    simp only [State.isClosing, State.session, State.atRisingEdge, sel_mapAll]
    cases sel prst p <;> rfl
  have hring : ∀ p, (s.atRisingEdge qmode prst).ring p = Ring.unset := fun p => sel_replicate ..
  have hstep : ∀ p, ((s.atRisingEdge qmode prst).session p).state.step? = none := fun p => by
    simp only [State.session, State.atRisingEdge, sel_mapAll]
    cases sel prst p <;> rfl
  refine ⟨hv, fun p => ⟨fun h => absurd ((hnot p).symm.trans h) nofun, fun _ => ?_,
    fun h => absurd ((hstep p).symm.trans h) nofun, fun h => absurd ((hstep p).symm.trans h) nofun⟩,
    fun p _ _ _ => hring p, fun p => State.PortRing.of_unset (hring p), ⟨nofun, fun p ho => ?_⟩, nofun, nofun⟩
  · rw [State.tokens_zero_iff]
    simp [State.session, State.atRisingEdge, SessionRecord.reset]
  · simp [State.atRisingEdge] at ho

theorem exec_keeps_closingsLegal (c : Instr) (s t : State) (h : exec c s = .next t) (hs : s.ClosingsLegal) :
    t.ClosingsLegal := by
  have hv := exec_keeps_viewLegal c s t h hs.1
  by_cases hses : Instr.IsSession c
  · exact (exec_sessionMoves h hses).keep SessionMove.keeps_closingsLegal hs
  by_cases hfalls : c = .rstAsserted
  · subst hfalls
    exact hs.rstAsserted h
  by_cases hrises : ∃ q v, c = .rstRisingEdge q v
  · obtain ⟨q, v, rfl⟩ := hrises
    cases h
    by_cases hrst : s.rstLow = true
    · rw [if_pos hrst] at hv ⊢
      exact s.atRisingEdge_closingsLegal q v hv
    · rw [if_neg hrst]
      exact hs
  exact (exec_engineMove h hses (fun q v he => hrises ⟨q, v, he⟩) hfalls).keeps_closingsLegal hv hs

/-- Settles O59: the moves of the sessions and of the Copy Engine each keep the teardown, the rings and the current job in
agreement. -/
theorem stepKeepsTeardownAndJobs : Obligations.StepKeepsTeardownAndJobs := fun _ _ hs h =>
  step_keeps closingsLegal_reads rfl (fun s hs => closingsLegal_reads.keep s.refclk_changes rfl hs)
    exec_keeps_closingsLegal h hs

end Sys2Proof.Machine
end

section
/-! SUPPORT. The disposal of a closed port's frames (R28): what it makes of each frame record, of the scrub queue and of the
quota counts, frame by frame in ascending order. -/

namespace Sys2Proof.Machine

/-! ## The frames in ascending order -/

theorem allFrames_pairwise : allFrames.Pairwise (· < ·) := List.pairwise_lt_finRange 64

/-- The frames ahead of one in the row are those with a lower number. -/
theorem filter_lt_of_split {pre rest : List Frame} {f : Frame} (h : allFrames = pre ++ f :: rest) :
    allFrames.filter (fun g => decide (g < f)) = pre := by
  have hsorted := allFrames_pairwise
  rw [h] at hsorted ⊢
  obtain ⟨-, hrest, hpre⟩ := List.pairwise_append.mp hsorted
  have hafter := (List.pairwise_cons.mp hrest).1
  rw [List.filter_append, List.filter_eq_self.mpr fun g hg => ?_, List.filter_eq_nil_iff.mpr fun g hg => ?_,
    List.append_nil]
  · rcases List.mem_cons.mp hg with rfl | hg
    · simp
    · simpa using (hafter g hg).le
  · simpa using hpre g hg f List.mem_cons_self

/-! ## What becomes of a frame -/

/-- The frame is the closing port's. -/
def State.ownsFrame (s : State) (p : Port) (f : Frame) : Bool := (s.frame f).owner == some p

/-- How many of the frames given name a port as heir among those of the closing port. -/
def State.namedIn (s : State) (p : Port) (l : List Frame) (q : Port) : Nat :=
  (l.filter fun g => s.ownsFrame p g && (s.frame g).fallback == some q).length

/-- The heir of a frame after the frames given (R28): UP, and in SPLIT mode below its quota with what those pass to it. -/
def State.heirAfter (s : State) (p : Port) (l : List Frame) (f : Frame) : Option Port :=
  match (s.frame f).fallback with
  | none => none
  | some q => if s.dirUp q = true ∧ (s.splitQuota = true → s.quotaCount q + s.namedIn p l q < 16) then some q else none

/-- The heir of a frame in the disposal of a port's frames. -/
def State.heirOf (s : State) (p : Port) (f : Frame) : Option Port :=
  s.heirAfter p (allFrames.filter fun g => decide (g < f)) f

/-- The record of a frame after the disposal. -/
def State.disposedFrame (s : State) (p : Port) (f : Frame) : FrameRecord :=
  if s.ownsFrame p f then
    match s.heirOf p f with
    | some q => (s.frame f).passed q
    | none => (s.frame f).givenUp
  else s.frame f

/-- The frame is given up to the scrub. -/
def State.freedFrame (s : State) (p : Port) (f : Frame) : Bool := s.ownsFrame p f && (s.heirOf p f).isNone

/-- The events of one frame's disposal. -/
def State.disposalEvents (s : State) (p : Port) (f : Frame) : List (Port × EventRecord) :=
  match s.heirOf p f with
  | some q =>
    revokeReaders (s.frame f) f p (some q) .ownerChanged ++
      [(q, Event.frameInherited p f ((s.frame f).generation + 1) (s.frame f).label)]
  | none => revokeReaders (s.frame f) f p none .released

theorem State.heirAfter_eq_some_iff {s : State} {p q : Port} {l : List Frame} {f : Frame} :
    s.heirAfter p l f = some q ↔ (s.frame f).fallback = some q ∧ s.dirUp q = true ∧
      (s.splitQuota = true → s.quotaCount q + s.namedIn p l q < 16) := by
  unfold State.heirAfter
  cases hf : (s.frame f).fallback with
  | none => simp
  | some x =>
    simp only [Option.some.injEq, Option.ite_none_right_eq_some]
    exact ⟨fun ⟨h, he⟩ => ⟨he, he ▸ h⟩, fun ⟨he, h⟩ => ⟨he ▸ h, he⟩⟩

/-! ## The row of frames -/

/-- What holds of the disposal once the frames given have been gone through. -/
structure DisposedSoFar (s : State) (p : Port) (l : List Frame) (acc : State × List (Port × EventRecord)) : Prop where
  frame : ∀ f, acc.1.frame f = if f ∈ l then s.disposedFrame p f else s.frame f
  queue : acc.1.scrub.queue = s.scrub.queue ++ l.filter (s.freedFrame p)
  events : acc.2 = (l.filter (s.ownsFrame p)).flatMap (s.disposalEvents p)
  rest : ∃ frames queue, acc.1 = { s with frames := frames, scrub := { s.scrub with queue := queue } }
  count : ∀ q, s.splitQuota = true → s.dirUp q = true →
    (s.quotaCount q + s.namedIn p l q < 16 → acc.1.quotaCount q = s.quotaCount q + s.namedIn p l q) ∧
      (16 ≤ s.quotaCount q + s.namedIn p l q → 16 ≤ acc.1.quotaCount q)

section

variable {s : State} {p : Port} {l : List Frame} {acc : State × List (Port × EventRecord)}

theorem DisposedSoFar.dirUp (h : DisposedSoFar s p l acc) (q : Port) : acc.1.dirUp q = s.dirUp q := by
  obtain ⟨v, w, he⟩ := h.rest
  rw [he]
  rfl

theorem DisposedSoFar.splitQuota (h : DisposedSoFar s p l acc) : acc.1.splitQuota = s.splitQuota := by
  obtain ⟨v, w, he⟩ := h.rest
  rw [he]

/-- The heir as the directory finds it when it comes to a frame. -/
theorem DisposedSoFar.heir (h : DisposedSoFar s p l acc) {f : Frame} (hf : f ∉ l) :
    acc.1.heir (acc.1.frame f) = s.heirAfter p l f := by
  refine Option.ext fun q => ?_
  rw [State.heir_eq_some_iff, State.heirAfter_eq_some_iff, h.frame, if_neg hf, h.dirUp]
  refine and_congr_right fun _ => and_congr_right fun hup => ?_
  rw [State.quotaFull_false_iff, State.AtQuota, h.splitQuota, not_and, Nat.not_le]
  refine forall_congr' fun hsplit => ?_
  obtain ⟨hbelow, hfull⟩ := h.count q hsplit hup
  omega

theorem State.namedIn_append (s : State) (p : Port) (l : List Frame) (f : Frame) (q : Port) :
    s.namedIn p (l ++ [f]) q =
      s.namedIn p l q + (s.ownsFrame p f && (s.frame f).fallback == some q).toNat := by
  cases hf : (s.ownsFrame p f && (s.frame f).fallback == some q) <;>
    simp [State.namedIn, List.filter_append, hf]

theorem FrameRecord.load_of_owned {f : Frame} {r : FrameRecord} (hr : r.Legal f) {p : Port} (howner : r.owner = some p)
    (q : Port) : r.load q = (q == p).toNat := r.load_owner howner (hr.of_owner howner).2.2.2 q

/-- The directory comes to one more frame. -/
theorem DisposedSoFar.step (h : DisposedSoFar s p l acc) (hlegal : s.FramesLegal) (hdown : s.dirUp p = false) {f : Frame}
    (hf : f ∉ l) (hheir : s.heirOf p f = s.heirAfter p l f) : DisposedSoFar s p (l ++ [f]) (disposeFrame p acc f) := by
  have hframe : acc.1.frame f = s.frame f := by rw [h.frame, if_neg hf]
  have hfind := h.heir hf
  obtain ⟨v, w, hrest⟩ := h.rest
  have hmem (g : Frame) : g ∈ l ++ [f] ↔ g ∈ l ∨ g = f := by simp
  unfold disposeFrame
  by_cases howns : (s.frame f).owner = some p
  · have howned : s.ownsFrame p f = true := beq_iff_eq.mpr howns
    have hload := FrameRecord.load_of_owned (hlegal f) howns
    have hres := ((hlegal f).of_owner howns).2.2.2
    rw [hframe] at hfind ⊢
    rw [if_neg (not_not.mpr howns), hfind]
    cases hq : s.heirAfter p l f with
    | some q =>
      have hdisp : s.disposedFrame p f = (s.frame f).passed q := by
        simp only [State.disposedFrame, howned, if_true, hheir, hq]
      obtain ⟨hfb, hup, -⟩ := State.heirAfter_eq_some_iff.mp hq
      have hqp : q ≠ p := State.ne_of_dirUp hup hdown
      refine ⟨fun g => ?_, ?_, ?_, ⟨put v f ((s.frame f).passed q), w, ?_⟩, fun x hsplit hx => ?_⟩
      · simp only [State.setFrame_frame, hmem, h.frame]
        by_cases hg : g = f
        · subst hg; simp [hdisp]
        · simp [hg]
      · simp [h.queue, List.filter_append, State.freedFrame, hheir, hq]
      · simp [h.events, List.filter_append, howned, State.disposalEvents, hheir, hq]
      · simp only [State.setFrame, hrest]
      · have hcount := acc.1.setFrame_quotaCount f ((s.frame f).passed q) x
        have hnew : ((s.frame f).passed q).load x = (x == q).toNat := FrameRecord.load_owner (r := (s.frame f).passed q) rfl hres x
        have hxp : (x == p) = false := beq_eq_false_iff_ne.mpr (State.ne_of_dirUp hx hdown)
        rw [hframe, hload, hnew, hxp, Bool.toNat_false, Nat.add_zero] at hcount
        have hnamed : (s.ownsFrame p f && (s.frame f).fallback == some x) = (x == q) := by
          rw [howned, hfb, Bool.true_and, Option.some_beq_some, BEq.comm]
        rw [s.namedIn_append, hnamed]
        obtain ⟨hbelow, hfull⟩ := h.count x hsplit hx
        show (_ → State.quotaCount (acc.1.setFrame f _) x = _) ∧ (_ → 16 ≤ State.quotaCount (acc.1.setFrame f _) x)
        omega
    | none =>
      have hdisp : s.disposedFrame p f = (s.frame f).givenUp := by
        simp only [State.disposedFrame, howned, if_true, hheir, hq]
      refine ⟨fun g => ?_, ?_, ?_, ⟨put v f (s.frame f).givenUp, w ++ [f], ?_⟩, fun x hsplit hx => ?_⟩
      · simp only [State.sendToScrub, State.setScrub_frame, State.setFrame_frame, hmem, h.frame]
        by_cases hg : g = f
        · subst hg; simp [hdisp, hf]
        · simp [hg]
      · simp [State.sendToScrub, h.queue, List.filter_append, State.freedFrame, howned, hheir, hq]
      · simp [h.events, List.filter_append, howned, State.disposalEvents, hheir, hq]
      · simp only [State.sendToScrub, State.setFrame, State.setScrub, hrest]
        rw [hrest] at hframe
        simp only [hframe]
      · have hcount := acc.1.setFrame_quotaCount f (s.frame f).givenUp x
        have hnew : (s.frame f).givenUp.load x = 0 := by simp [FrameRecord.load, FrameRecord.givenUp, hres]
        have hxp : (x == p) = false := beq_eq_false_iff_ne.mpr (State.ne_of_dirUp hx hdown)
        rw [hframe, hload, hnew, hxp, Bool.toNat_false] at hcount
        have hcount' : (acc.1.sendToScrub f).quotaCount x = acc.1.quotaCount x := by
          simp only [State.sendToScrub, State.setScrub_quotaCount, hframe]
          omega
        have hnamed : (s.ownsFrame p f && (s.frame f).fallback == some x) = true → 16 ≤ s.quotaCount x + s.namedIn p l x := by
          intro hx'
          by_contra hlt
          have hfb : (s.frame f).fallback = some x := by simpa [howned] using hx'
          have := State.heirAfter_eq_some_iff.mpr ⟨hfb, hx, fun _ => Nat.lt_of_not_le hlt⟩
          rw [hq] at this
          cases this
        rw [s.namedIn_append]
        obtain ⟨hbelow, hfull⟩ := h.count x hsplit hx
        show (_ → State.quotaCount (acc.1.sendToScrub f) x = _) ∧ (_ → 16 ≤ State.quotaCount (acc.1.sendToScrub f) x)
        rw [hcount']
        cases hb : (s.ownsFrame p f && (s.frame f).fallback == some x) with
        | true =>
          have := hnamed hb
          simp only [Bool.toNat_true]
          omega
        | false =>
          simp only [Bool.toNat_false, Nat.add_zero]
          exact ⟨hbelow, hfull⟩
  · have hnot : s.ownsFrame p f = false := beq_eq_false_iff_ne.mpr howns
    rw [hframe, if_pos howns]
    refine ⟨fun g => ?_, ?_, ?_, ⟨v, w, hrest⟩, fun q hsplit hq => ?_⟩
    · rw [h.frame]
      by_cases hg : g = f
      · subst hg; simp [hf, State.disposedFrame, hnot]
      · simp [hg]
    · simp [h.queue, List.filter_append, State.freedFrame, hnot]
    · simp [h.events, List.filter_append, hnot]
    · rw [s.namedIn_append, hnot, Bool.false_and, Bool.toNat_false, Nat.add_zero]
      exact h.count q hsplit hq

end

/-- The disposal once every frame has been gone through. -/
theorem State.disposeFrames_spec {s : State} {p : Port} (hlegal : s.FramesLegal) (hdown : s.dirUp p = false) :
    DisposedSoFar s p allFrames (s.disposeFrames p) := by
  have row (rest : List Frame) : ∀ pre acc, allFrames = pre ++ rest → DisposedSoFar s p pre acc →
      DisposedSoFar s p allFrames (rest.foldl (disposeFrame p) acc) := by
    induction rest with
    | nil =>
      intro pre acc hsplit h
      rw [List.append_nil] at hsplit
      exact hsplit ▸ h
    | cons f rest ih =>
      intro pre acc hsplit h
      have hnotin : f ∉ pre := by
        have hnodup := allFrames_nodup
        rw [hsplit] at hnodup
        exact fun hmem => (List.nodup_append.mp hnodup).2.2 f hmem f List.mem_cons_self rfl
      refine ih (pre ++ [f]) _ (by rw [hsplit, List.append_assoc]; rfl) (h.step hlegal hdown hnotin ?_)
      rw [State.heirOf, filter_lt_of_split hsplit]
  refine row allFrames [] (s, []) rfl ⟨fun f => by simp, by simp, rfl, ⟨s.frames, s.scrub.queue, rfl⟩, fun q _ _ => ?_⟩
  simp [State.namedIn]

end Sys2Proof.Machine
end

section
/-! SUPPORT. The ring frames stay OWNED by their ports (R101), and a port whose disposal is done owns no frame (R28, R180). -/

namespace Sys2Proof.Machine

/-! ## The ring frames -/

theorem ringFramesOwned_reads : ReadsOnly State.RingFramesOwned [.rings, .frame .owner, .frame .state] :=
  fun s t h hs p c hc => by
    have hrings : t.copy.rings = s.copy.rings := h .rings (by decide)
    have howner : (t.frame c.frame).owner = (s.frame c.frame).owner := h (.frame .owner) (by decide) c.frame
    have hst : (t.frame c.frame).state = (s.frame c.frame).state := h (.frame .state) (by decide) c.frame
    have hring : t.ring p = s.ring p := by simp only [State.ring, hrings]
    rw [howner, hst]
    exact hs p c (hring ▸ hc)

/-- A frame record is written: it is no ring frame, or its owner and state stay. -/
theorem State.RingFramesOwned.setFrame {s : State} (hs : s.RingFramesOwned) {f : Frame} {r : FrameRecord}
    (h : ∀ p, ∀ c ∈ (s.ring p).config, c.frame = f → r.owner = some p ∧ r.state = .owned) :
    (s.setFrame f r).RingFramesOwned := fun p c hc => by
  rw [State.setFrame_frame]
  split
  · exact h p c hc ‹_›
  · exact hs p c hc

/-- The condition under which a frame is no ring frame: its ring would be its owner's. -/
theorem State.RingFramesOwned.not_ringFrame {s : State} (hs : s.RingFramesOwned) (hr : s.RingsLegal) {f : Frame} {p : Port}
    (howner : (s.frame f).owner = some p) (hring : s.isRingFrame p f = false) {q : Port} {c : RingConfig}
    (hc : c ∈ (s.ring q).config) (hf : c.frame = f) : False := by
  have hq := (hs q c hc).1
  rw [hf, howner] at hq
  cases hq
  have : s.isRingFrame p f = true := State.isRingFrame_iff.mpr ⟨((hr p).2 c hc).1, c, hc, hf⟩
  rw [hring] at this
  cases this

theorem DirectoryMove.keeps_ringFrames {closed : Port → Prop} (s t : State) (h : DirectoryMove closed s t)
    (hclosed : ∀ p, closed p → s.ring p = Ring.unset) (hf : s.FramesLegal) (hr : s.RingsLegal) (hs : s.RingFramesOwned) :
    t.RingFramesOwned := by
  have kept {f : Frame} {r : FrameRecord} (ho : r.owner = (s.frame f).owner) (hst : r.state = (s.frame f).state) :
      (s.setFrame f r).RingFramesOwned :=
    hs.setFrame fun p c hc hcf => by rw [ho, hst, ← hcf]; exact hs p c hc
  have offered {f : Frame} {o : Offer} (ho : (s.frame f).offer = some o) (p : Port) (c : RingConfig)
      (hc : c ∈ (s.ring p).config) (hcf : c.frame = f) : False := by
    have hst := (hs p c hc).2
    rw [hcf, (hf f).2.1.mp (by rw [ho]; rfl)] at hst
    cases hst
  have closedFrame {f : Frame} {p : Port} (hp : closed p) (howner : (s.frame f).owner = some p) (q : Port) (c : RingConfig)
      (hc : c ∈ (s.ring q).config) (hcf : c.frame = f) : False := by
    have hq := (hs q c hc).1
    rw [hcf, howner] at hq
    cases hq
    rw [hclosed p hp] at hc
    cases hc
  cases h
  case other h => exact ringFramesOwned_reads.keep h rfl hs
  case grant f p hfree _ _ =>
    refine hs.setFrame fun q c hc hcf => ?_
    have hst := (hs q c hc).2
    rw [hcf, hfree] at hst
    cases hst
  case release f p howner _ hring =>
    exact ringFramesOwned_reads.keep (State.setScrubQueue_changes _ _) rfl
      (hs.setFrame fun q c hc hcf => (hs.not_ringFrame hr howner hring hc hcf).elim)
  case giveUp f p hp howner =>
    exact ringFramesOwned_reads.keep (State.setScrubQueue_changes _ _) rfl
      (hs.setFrame fun q c hc hcf => (closedFrame hp howner q c hc hcf).elim)
  case inherit f p x hp howner _ _ _ => exact hs.setFrame fun q c hc hcf => (closedFrame hp howner q c hc hcf).elim
  case offer o howner _ _ _ _ hring _ _ =>
    exact ringFramesOwned_reads.keep (State.setInbox_changes ..) rfl
      (hs.setFrame fun q c hc hcf => (hs.not_ringFrame hr howner hring hc hcf).elim)
  case endOffer f =>
    cases ho : (s.frame f).offer with
    | none => rwa [State.endOffer_none ho]
    | some o =>
      rw [State.endOffer_some ho]
      exact ringFramesOwned_reads.keep (State.setInbox_changes ..) rfl
        (hs.setFrame fun q c hc hcf => (offered ho q c hc hcf).elim)
  case accept f p o hi _ _ =>
    obtain ⟨-, ho, -⟩ := State.inboxOffer_eq_some_iff.mp hi
    exact ringFramesOwned_reads.keep (State.setInbox_changes ..) rfl
      (hs.setFrame fun q c hc hcf => (offered ho q c hc hcf).elim)
  all_goals exact kept rfl rfl

theorem DirectoryMoves.keeps_ringFrames {closed : Port → Prop} {s t : State} (h : DirectoryMoves closed s t)
    (hclosed : ∀ p, closed p → s.ring p = Ring.unset) (hf : s.FramesLegal) (hr : s.RingsLegal) (hs : s.RingFramesOwned) :
    t.RingFramesOwned := by
  refine (h.keep (P := fun s => (∀ p, closed p → s.ring p = Ring.unset) ∧ s.FramesLegal ∧ s.RingsLegal ∧ s.RingFramesOwned)
    (fun s t h hs => ?_) ⟨hclosed, hf, hr, hs⟩).2.2.2
  obtain ⟨hclosed, hf, hr, hs⟩ := hs
  have hrings : t.copy.rings = s.copy.rings := h.changes.same .rings rfl
  exact ⟨fun p hp => by rw [State.ring, hrings]; exact hclosed p hp, h.keeps_framesLegal s t hf,
    ringsLegal_reads.keep h.changes rfl hr, h.keeps_ringFrames s t hclosed hf hr hs⟩

theorem Ring.afterEmptyFetch_config (g : Ring) : g.afterEmptyFetch.config = g.config := by
  unfold Ring.afterEmptyFetch
  split <;> rfl

theorem Ring.afterWriteBack_config (g : Ring) (st : DescStatus) : (g.afterWriteBack st).config = g.config := by
  unfold Ring.afterWriteBack
  split
  · rfl
  · simp [*]

/-- A write of one ring leaves its frame, or names one that its port owns (R102). -/
theorem EngineMove.keeps_ringFrames {s t : State} (h : EngineMove s t) (hs : s.RingFramesOwned)
    (hframe : ∀ f, (t.frame f).owner = (s.frame f).owner ∧ (t.frame f).state = (s.frame f).state) :
    t.RingFramesOwned := fun q c hc => by
  rw [(hframe c.frame).1, (hframe c.frame).2]
  cases h with
  | other h =>
    have hrings : t.copy.rings = s.copy.rings := h .rings (by decide)
    rw [State.ring, hrings] at hc
    exact hs q c hc
  | set h hwhy =>
    rw [State.ring_of_put h.rings] at hc
    split at hc
    · subst q
      cases hwhy with
      | setup _ _ _ howner howned =>
        cases hc
        exact ⟨howner, howned⟩
      | teardown _ _ => cases hc
      | _ => exact hs _ c hc
    · exact hs q c hc
  | ended _ h hwhy =>
    rw [State.ring_of_put h.rings] at hc
    split at hc
    · subst q
      cases hwhy with
      | empty _ _ =>
        rw [Ring.afterEmptyFetch_config] at hc
        exact hs _ c hc
      | written _ _ =>
        rw [Ring.afterWriteBack_config] at hc
        exact hs _ c hc
      | returned _ _ => exact hs _ c hc
      | abandoned _ _ => exact hs _ c hc
    · exact hs q c hc
  | closing _ h =>
    rw [State.ring_of_put h.rings] at hc
    split at hc
    · cases hc
    · exact hs q c hc

/-- The disposal of a port waits for the Copy Engine's part in its closing: its ring is UNSET (R177, R178). -/
theorem State.ring_unset_of_dispose {s : State} (hs : s.ClosingsLegal) (hrst : s.rstLow = false) {p : Port}
    (hmail : .dispose p ∈ s.dirMail) : s.ring p = Ring.unset := by
  obtain ⟨hv, ht, hc, -⟩ := hs
  have hstep := ((State.viewLegal_iff.mp hv).2 p).2.2.2.1 hmail
  refine hc p (fun hup => ?_) hrst ((ht p).2.2.2 hstep).1
  rw [hup] at hstep
  cases hstep

theorem exec_keeps_ringFrames (c : Instr) (s t : State) (h : exec c s = .next t) (hd : s.DirectoryLegal)
    (hcl : s.ClosingsLegal) (hs : s.RingFramesOwned) : t.RingFramesOwned := by
  have hc := exec_changes h
  have hf := hd.1
  obtain ⟨-, -, -, hr, -⟩ := id hcl
  have run {act : State → State} (hr : whileRunning s act = .next t)
      (hact : s.rstLow = false → (act s).RingFramesOwned) : t.RingFramesOwned :=
    whileRunning_keeps (P := State.RingFramesOwned) hr hs hact
  by_cases hdir : Instr.IsDirectory c
  · exact (exec_moves h hdir).keeps_ringFrames (fun _ hfalse => hfalse.elim) hf hr hs
  have engine (hses : ¬Instr.IsSession c) (hrises : ∀ q v, c ≠ .rstRisingEdge q v) (hfalls : c ≠ .rstAsserted)
      (hl : partsApart [.frame .owner, .frame .state] (Instr.parts c) = true) : t.RingFramesOwned := by
    refine (exec_engineMove h hses hrises hfalls).keeps_ringFrames hs fun f => ?_
    exact ⟨hc.sames hl (.frame .owner) (by decide) f, hc.sames hl (.frame .state) (by decide) f⟩
  cases c <;> first | exact absurd trivial hdir | unfold exec at h
  case tick =>
    refine run h fun hrst => ?_
    rw [State.awaitTick_refclk s hrst]
    have hc := s.setTickCount_changes 0
    exact (State.takeTick_moves (closed := fun _ => False) _).keeps_ringFrames (fun _ hfalse => hfalse.elim)
      (framesLegal_reads.keep hc rfl hf) (ringsLegal_reads.keep hc rfl hr) (ringFramesOwned_reads.keep hc rfl hs)
  case scrubDone =>
    refine run h fun _ => ?_
    split
    · exact hs
    · rename_i f rest hq
      split
      · refine ringFramesOwned_reads.keep ((State.setScrub_changes ..).trans (State.takeHead_changes _)) rfl ?_
        obtain ⟨-, -, -, -, -, hsc⟩ := hd
        have hst : (s.frame f).state = .scrubbing := (hsc.2.1 f).mp (by rw [hq]; exact List.mem_cons_self)
        have hnot (p : Port) (c : RingConfig) (hc : c ∈ (s.ring p).config) (hcf : c.frame = f) : False := by
          have := (hs p c hc).2
          rw [hcf, hst] at this
          cases this
        unfold State.reportScrubbed
        split
        · exact hs.setFrame fun p c hc hcf => (hnot p c hc hcf).elim
        · exact ringFramesOwned_reads.keep (State.handOver_changes ..) rfl
            (hs.setFrame fun p c hc hcf => (hnot p c hc hcf).elim)
      · exact hs
  case directoryClosing p =>
    refine run h fun _ => ?_
    split
    · rename_i rest _
      split
      · rw [State.closeAtDirectory_eq]
        have hgrants := ((s.setDirMail_changes rest).trans (State.withoutPort_changes _ p)).trans
          (State.setClosingTaken_changes _ p true)
        refine ringFramesOwned_reads.keep (State.handOver_changes ..) rfl
          ((State.settleOffers_moves (closed := fun _ => False) _ p).keeps_ringFrames (fun _ hfalse => hfalse.elim) ?_
            (ringsLegal_reads.keep hgrants rfl hr) (ringFramesOwned_reads.keep hgrants rfl hs))
        exact State.closeGrants_framesLegal (framesLegal_reads.keep (s.setDirMail_changes rest) rfl hf) p
      · exact hs
    · exact hs
  case disposal p =>
    refine run h fun hrst => ?_
    split
    · rename_i q rest hmail
      split
      · rename_i hq
        obtain ⟨rfl, -⟩ := hq
        have hunset := State.ring_unset_of_dispose hcl hrst (by rw [hmail]; exact List.mem_cons_self)
        have hc := s.setDirMail_changes rest
        rw [State.disposeAll_eq]
        refine ringFramesOwned_reads.keep (State.setDisposalDone_changes _ _ true) rfl
          ((State.disposeFrames_moves _ _).keeps_ringFrames (fun x hx => ?_) (framesLegal_reads.keep hc rfl hf)
            (ringsLegal_reads.keep hc rfl hr) (ringFramesOwned_reads.keep hc rfl hs))
        rw [hx]
        exact hunset
      · exact hs
    · exact hs
  case rstAsserted =>
    cases h
    split
    · exact hs
    · intro p c hc
      simp only [State.ring, State.frame, sel_mapAll] at hc ⊢
      exact hs p c hc
  case rstRisingEdge q v =>
    cases h
    split
    · intro p c hc
      simp [State.ring, State.atRisingEdge, Ring.unset] at hc
    · exact hs
  case detach => exact ringFramesOwned_reads.keep hc rfl hs
  case prstAsserted => exact ringFramesOwned_reads.keep hc rfl hs
  case prstReleased => exact ringFramesOwned_reads.keep hc rfl hs
  case jobGone => exact ringFramesOwned_reads.keep hc rfl hs
  case disposalDone => exact ringFramesOwned_reads.keep hc rfl hs
  all_goals exact engine id nofun nofun rfl

/-! ## The holdings of closed ports -/

/-- The holdings of every port, by which ports own nothing. -/
def State.HoldsOnly (none : Port → Prop) (s : State) : Prop :=
  ∀ p, ((s.session p).disposalDone = true → none p ∧ s.dirUp p = false) ∧ ((s.session p).state = .down → none p)

theorem State.holdingsLegal_iff {s : State} : s.HoldingsLegal ↔ s.HoldsOnly s.OwnsNothing := Iff.rfl

theorem holdsOnly_reads (none : Port → Prop) :
    ReadsOnly (State.HoldsOnly none) [.closingTaken, .session .disposalDone, .session .state] := fun s t h hs p => by
  have htaken : t.closingTaken = s.closingTaken := h .closingTaken (by decide)
  have hdone : (t.session p).disposalDone = (s.session p).disposalDone := h (.session .disposalDone) (by decide) p
  have hst : (t.session p).state = (s.session p).state := h (.session .state) (by decide) p
  rw [hdone, hst, State.dirUp, htaken]
  exact hs p

/-- Where no port comes to own a frame that it did not own. -/
theorem State.HoldsOnly.mono {s : State} {none none' : Port → Prop} (hs : s.HoldsOnly none)
    (h : ∀ p, s.dirUp p = false → none p → none' p) (hv : s.ViewLegal) : s.HoldsOnly none' := fun p => by
  obtain ⟨hdone, hdown⟩ := hs p
  refine ⟨fun hd => ⟨h p (hdone hd).2 (hdone hd).1, (hdone hd).2⟩, fun hd => h p ?_ (hdown hd)⟩
  exact ((State.viewLegal_iff.mp hv).2 p).2.1 hd

theorem SessionMove.keeps_holdsOnly {gone none : Port → Prop} {s t : State} (h : SessionMove gone s t)
    (hgone : ∀ p, gone p → none p) (ht : s.TeardownLegal) (hs : s.HoldsOnly none) : t.HoldsOnly none := by
  intro q
  have hq := hs q
  cases h
  case other h => exact (holdsOnly_reads none).keep h rfl hs q
  case close p rejoin hup =>
    by_cases he : q = p
    · subst he
      rw [State.enterClosing_session_same]
      exact ⟨hq.1, nofun⟩
    · rw [State.enterClosing_session_of_ne _ _ he]
      exact hq
  case rejoin p old new step _ =>
    rw [State.setSession_session]
    split
    · subst q; exact ⟨hq.1, nofun⟩
    · exact hq
  case enter p hdown =>
    rw [State.enterUp_dirUp]
    by_cases he : q = p
    · subst he
      have hnot := (State.PortTeardown.tokens_of_not_closing (ht q) (State.isClosing_of_down hdown)).2.2.2.2
      rw [State.enterUp_session_same]
      exact ⟨fun hd => absurd (hnot.symm.trans hd) nofun, nofun⟩
    · rw [State.enterUp_session_of_ne _ he, if_neg he]
      exact hq
  case taken p rest _ =>
    refine ⟨fun hd => ⟨(hq.1 hd).1, ?_⟩, hq.2⟩
    rw [State.setClosingTaken_dirUp]
    split
    · rfl
    · exact (hq.1 hd).2
  case jobGone p rejoin _ _ _ =>
    rw [State.setDirMail_session, State.setSession_session]
    split
    · subst q; exact ⟨hq.1, nofun⟩
    · exact hq
  case disposed p rest hp _ _ htaken =>
    rw [State.setSession_session]
    split
    · subst q
      exact ⟨fun _ => ⟨hgone p hp, htaken⟩, hq.2⟩
    · exact hq
  case complete p rejoin _ _ hdone _ =>
    rw [State.setSession_session]
    split
    · subst q
      exact ⟨nofun, fun _ => (hq.1 hdone).1⟩
    · exact hq

/-- A move of the directory gives a frame only to a port that is UP in its view. -/
theorem DirectoryMove.ownsNothing {closed : Port → Prop} (s t : State) (h : DirectoryMove closed s t) (hup : s.UpSeen)
    {p : Port} (hdown : s.dirUp p = false) (hs : s.OwnsNothing p) : t.OwnsNothing p := by
  have set {f : Frame} {r : FrameRecord} (hr : r.owner ≠ some p) : (s.setFrame f r).OwnsNothing p := fun g => by
    rw [State.setFrame_frame]
    split
    · exact hr
    · exact hs g
  have other {q : Port} (hq : s.dirUp q = true) : some q ≠ some p := fun he =>
    State.ne_of_dirUp hq hdown (Option.some.inj he)
  cases h
  case other h => exact fun f => (h.same (.frame .owner) rfl f : _ = _) ▸ hs f
  case grant f q _ hq _ => exact set (other (hup q hq))
  case accept f q o _ hq _ => exact fun g => set (f := f) (r := (s.frame f).passed q) (other (hup q hq)) g
  case inherit f x q _ _ _ hq _ => exact set (other hq)
  case release f q _ _ _ => exact fun g => set (f := f) (r := (s.frame f).givenUp) nofun g
  case giveUp f q _ _ => exact fun g => set (f := f) (r := (s.frame f).givenUp) nofun g
  case endOffer f => exact fun g => ((s.endOffer_changes f).same (.frame .owner) rfl g : _ = _) ▸ hs g
  case offer o _ _ _ _ _ _ _ _ => exact fun g => ((s.makeOffer_changes o).same (.frame .owner) rfl g : _ = _) ▸ hs g
  all_goals exact set (hs _)

theorem DirectoryMoves.ownsNothing {closed : Port → Prop} {s t : State} (h : DirectoryMoves closed s t) (hup : s.UpSeen)
    {p : Port} (hdown : s.dirUp p = false) (hs : s.OwnsNothing p) : t.OwnsNothing p :=
  (h.keep (P := fun s => s.UpSeen ∧ s.dirUp p = false ∧ s.OwnsNothing p) (fun s t h hs =>
    ⟨h.keeps_upSeen s t hs.1, by
      have htaken : t.closingTaken = s.closingTaken := h.changes.same .closingTaken rfl
      rw [State.dirUp, htaken]; exact hs.2.1, h.ownsNothing s t hs.1 hs.2.1 hs.2.2⟩) ⟨hup, hdown, hs⟩).2.2

/-- After the disposal of a port's frames it owns none (R28). -/
theorem State.disposeFrames_ownsNothing {s : State} {p : Port} (hf : s.FramesLegal) (hdown : s.dirUp p = false) :
    (s.disposeFrames p).1.OwnsNothing p := fun f => by
  rw [(State.disposeFrames_spec hf hdown).frame, if_pos (mem_allFrames f)]
  unfold State.disposedFrame
  split
  · split
    · rename_i q hq
      obtain ⟨-, hup, -⟩ := State.heirAfter_eq_some_iff.mp hq
      exact fun he => State.ne_of_dirUp hup hdown (Option.some.inj he)
    · exact nofun
  · rename_i hnot
    exact fun he => hnot (beq_iff_eq.mpr he)

/-- A row of moves of the sessions, by what is owned at its end. -/
theorem SessionMoves.holdings {gone : Port → Prop} {s t : State} (h : SessionMoves gone s t)
    (hgone : ∀ p, gone p → t.OwnsNothing p) (hcl : s.ClosingsLegal)
    (hown : ∀ p, s.dirUp p = false → s.OwnsNothing p → t.OwnsNothing p) (hs : s.HoldingsLegal) : t.HoldingsLegal :=
  (h.keep (P := fun u => u.ClosingsLegal ∧ u.HoldsOnly t.OwnsNothing)
    (fun u v h hu => ⟨h.keeps_closingsLegal u v hu.1, h.keeps_holdsOnly hgone hu.1.2.1 hu.2⟩)
    ⟨hcl, (State.holdingsLegal_iff.mp hs).mono hown hcl.1⟩).2

theorem State.OwnsNothing.of_same {s t : State} {l : List Part} (h : s.Changes t l)
    (hl : partsApart [.frame .owner] l = true) {p : Port} (hs : s.OwnsNothing p) : t.OwnsNothing p := fun f => by
  have howner : (t.frame f).owner = (s.frame f).owner := h.sames hl (.frame .owner) (List.mem_singleton.mpr rfl) f
  rw [howner]
  exact hs f

theorem State.disposeAll_keepsNothing {s : State} {p q : Port} (hup : s.UpSeen) (hq : s.dirUp q = false)
    (hs : s.OwnsNothing q) : (s.disposeAll p).OwnsNothing q := by
  have hmoves := s.disposeFrames_moves p
  rw [State.disposeAll_eq]
  generalize (s.disposeFrames p).1.handOver .directory (s.disposeFrames p).2 = t at hmoves ⊢
  exact .of_same (State.setDisposalDone_changes _ p true) rfl (hmoves.ownsNothing hup hq hs)

theorem State.disposeAll_ownsNothing {s : State} {p q : Port} (h : (s.disposeFrames p).1.OwnsNothing q) :
    (s.disposeAll p).OwnsNothing q := by
  rw [State.disposeAll_eq]
  generalize s.disposeFrames p = r at h ⊢
  exact .of_same ((State.handOver_changes ..).trans (State.setDisposalDone_changes _ p true)) rfl h

theorem exec_keeps_holdings (c : Instr) (s t : State) (h : exec c s = .next t) (hd : s.DirectoryLegal)
    (hcl : s.ClosingsLegal) (hs : s.HoldingsLegal) : t.HoldingsLegal := by
  have hc := exec_changes h
  obtain ⟨hf, -, hv, hg, -, -⟩ := hd
  have hup := hv.upSeen
  have frames (hl : partsApart [.closingTaken, .session .disposalDone, .session .state] (Instr.parts c) = true)
      (hown : ∀ p, s.dirUp p = false → s.OwnsNothing p → t.OwnsNothing p) : t.HoldingsLegal :=
    (holdsOnly_reads _).keep hc hl ((State.holdingsLegal_iff.mp hs).mono hown hv)
  have session (hses : Instr.IsSession c) (hgone : ∀ p, ¬Instr.closedPort c p)
      (hl : partsApart [.frame .owner] (Instr.parts c) = true) : t.HoldingsLegal :=
    (exec_sessionMoves h hses).holdings (fun p hp => absurd hp (hgone p)) hcl (fun _ _ ho => .of_same hc hl ho) hs
  by_cases hdir : Instr.IsDirectory c
  · refine frames ?_ fun p hp ho => (exec_moves h hdir).ownsNothing hup hp ho
    cases c <;> first | exact absurd hdir id | rfl
  cases c <;> first | exact absurd trivial hdir | unfold exec at h
  case detach p => exact session trivial (fun _ => id) rfl
  case prstAsserted p => exact session trivial (fun _ => id) rfl
  case prstReleased p => exact session trivial (fun _ => id) rfl
  case directoryClosing p => exact session trivial (fun _ => id) rfl
  case jobGone p => exact session trivial (fun _ => id) rfl
  case disposalDone p => exact session trivial (fun _ => id) rfl
  case disposal p =>
    refine whileRunning_keeps (P := State.HoldingsLegal) h hs fun hrst => ?_
    split
    · rename_i q rest hmail
      split
      · rename_i hq
        obtain ⟨rfl, htaken⟩ := hq
        have hdown : s.dirUp q = false := by rw [State.dirUp, htaken]; rfl
        refine (State.disposeAll_moves hrst hmail hdown).holdings (fun x hx => ?_) hcl (fun x hx ho => ?_) hs
        · rw [hx]
          exact State.disposeAll_ownsNothing (s := s.setDirMail rest)
            (State.disposeFrames_ownsNothing (framesLegal_reads.keep (s.setDirMail_changes rest) rfl hf) hdown)
        · have howned : (s.setDirMail rest).OwnsNothing x := .of_same (s.setDirMail_changes rest) rfl ho
          have hup' : (s.setDirMail rest).UpSeen := upSeen_reads.keep (s.setDirMail_changes rest) rfl hup
          exact State.disposeAll_keepsNothing hup' hx howned
      · exact hs
    · exact hs
  case tick =>
    refine frames rfl fun p hp ho => ?_
    refine whileRunning_keeps (P := fun s => s.OwnsNothing p) h ho fun hrst => ?_
    rw [State.awaitTick_refclk s hrst]
    exact (State.takeTick_moves (closed := fun _ => False) (s.setTickCount 0)).ownsNothing
      (upSeen_reads.keep (s.setTickCount_changes 0) rfl hup) hp (.of_same (s.setTickCount_changes 0) rfl ho)
  case scrubDone =>
    refine frames rfl fun p hp ho => ?_
    refine whileRunning_keeps (P := fun s => s.OwnsNothing p) h ho fun _ => ?_
    split
    · exact ho
    · rename_i f rest _
      split
      · refine State.OwnsNothing.of_same ((State.setScrub_changes ..).trans (State.takeHead_changes _)) rfl ?_
        have set {r : FrameRecord} (hr : r.owner ≠ some p) : (s.setFrame f r).OwnsNothing p := fun g => by
          rw [State.setFrame_frame]
          split
          · exact hr
          · exact ho g
        unfold State.reportScrubbed
        split
        · exact set nofun
        · rename_i x hx
          refine .of_same (State.handOver_changes ..) rfl (set fun he => ?_)
          exact (hg f p hp).2.2.1 (hx.trans he)
      · exact ho
  case rstAsserted =>
    cases h
    split
    · exact hs
    · intro p
      obtain ⟨-, hdown⟩ := hs p
      refine ⟨fun hdone => ?_, fun hst f => ?_⟩
      · simp [State.session, SessionRecord.abandoned] at hdone
      · simp only [State.session, State.frame, sel_mapAll] at hst ⊢
        exact hdown hst f
  case rstRisingEdge q v =>
    cases h
    split
    · intro p
      refine ⟨fun hdone => ?_, fun _ f => ?_⟩
      · simp [State.session, State.atRisingEdge, SessionRecord.reset] at hdone
      · simp [State.frame, State.atRisingEdge, FrameRecord.reset]
    · exact hs
  all_goals
    refine (holdsOnly_reads _).keep hc rfl ((State.holdingsLegal_iff.mp hs).mono (fun _ _ ho => ?_) hv)
    exact .of_same hc rfl ho

/-! ## The statement -/

theorem holdings_reads : ReadsOnly State.HoldingsLegal
    [.closingTaken, .session .disposalDone, .session .state, .frame .owner] := fun s t h hs p => by
  obtain ⟨hdone, hdown⟩ := hs p
  have howner : ∀ f, (t.frame f).owner = (s.frame f).owner := h (.frame .owner) (by decide)
  have htaken : t.closingTaken = s.closingTaken := h .closingTaken (by decide)
  have hd : (t.session p).disposalDone = (s.session p).disposalDone := h (.session .disposalDone) (by decide) p
  have hst : (t.session p).state = (s.session p).state := h (.session .state) (by decide) p
  simp only [State.OwnsNothing, howner, hd, hst, State.dirUp, htaken]
  exact ⟨hdone, hdown⟩

theorem State.RingFramesOwned.refclk {s : State} (hd : s.DirectoryLegal) (hcl : s.ClosingsLegal) (hs : s.RingFramesOwned) :
    s.refclk.RingFramesOwned := by
  rcases s.refclk_cases with ⟨-, he⟩ | ⟨-, -, he⟩ | ⟨hrst, he⟩ <;> rw [he]
  · exact hs
  · exact ringFramesOwned_reads.keep (s.setTickCount_changes _) rfl hs
  · refine exec_keeps_ringFrames .tick s _ ?_ hd hcl hs
    unfold exec execTick
    rw [whileRunning_high hrst, State.awaitTick_refclk s hrst]

/-- Settles O60: the moves of the directory pass no ring frame and give no frame to a port that is not UP in its view; a
disposal leaves its port without frames. -/
theorem stepKeepsHoldings : Obligations.StepKeepsHoldings := by
  intro s t hd hcl h
  rcases step_cases h with ⟨-, rfl⟩ | ⟨c, rest, he⟩
  · exact ⟨fun hs => State.RingFramesOwned.refclk hd hcl hs, fun hs => holdings_reads.keep s.refclk_changes rfl hs⟩
  · have hp := s.setPending_changes rest
    have hd' := directoryLegal_reads.keep hp rfl hd
    have hcl' := closingsLegal_reads.keep hp rfl hcl
    exact ⟨fun hs => exec_keeps_ringFrames c _ t he hd' hcl' (ringFramesOwned_reads.keep hp rfl hs),
      fun hs => exec_keeps_holdings c _ t he hd' hcl' (holdings_reads.keep hp rfl hs)⟩

end Sys2Proof.Machine
end

section
/-! SUPPORT. The family of the frame commands with more than one outcome: what the bodies of CLAIM, RELEASE, FALLBACK, LEND
and REVOKE give in each of their cases, and the statements about them. -/

namespace Sys2Proof.Machine

@[simp] theorem State.withEvents_commands (s : State) (source : Producer) (l : List (Port × EventRecord)) :
    (s.withEvents source l).commands = s.commands := by
  obtain ⟨v, hv⟩ := s.withEvents_rest source l
  rw [hv]

/-! ## CLAIM (R13) -/

theorem claimBody_badArg {a : Args} (s : State) (p : Port) (h : frameArg a.arg0 = none ∨ flagArg a.arg1 = none) :
    claimBody s p a = (s, .plain .badArg) := by
  unfold claimBody
  split
  case h_1 hframe hflag => simp [hframe, hflag] at h
  case h_2 => rfl

theorem claimBody_eq {a : Args} {f : Frame} {reserve : Bool} (s : State) (p : Port) (hf : a.arg0.toNat = f.val)
    (hr : a.arg1.toNat = reserve.toNat) : claimBody s p a = claimFrame s p f reserve := by
  simp [claimBody, frameArg_of_val hf, flagArg_of_toNat hr]

theorem claimFrame_free {s : State} {p : Port} {f : Frame} (reserve : Bool) (hs : (s.frame f).state = .free) :
    claimFrame s p f reserve =
      if s.quotaFull p then (s, .plain .quota)
      else (s.setFrame f ((s.frame f).granted p), ⟨.ok, lowByte ((s.frame f).generation + 1), 0, 0, 0⟩) := by
  simp [claimFrame, hs]

theorem claimFrame_held {s : State} {p : Port} {f : Frame} (reserve : Bool)
    (hs : (s.frame f).state = .owned ∨ (s.frame f).state = .offered) :
    claimFrame s p f reserve =
      if (s.frame f).owner = some p then (s, ⟨.ok, lowByte (s.frame f).generation, 0, 0, 0⟩) else (s, .plain .taken) := by
  rcases hs with hs | hs <;> simp [claimFrame, hs]

theorem claimFrame_unreserved {s : State} {p : Port} {f : Frame} (reserve : Bool)
    (hs : (s.frame f).state = .scrubbing) (hr : (s.frame f).reservation = none) :
    claimFrame s p f reserve =
      if reserve then
        if s.quotaFull p then (s, .plain .quota)
        else (s.setFrame f { s.frame f with reservation := some p },
          ⟨.queued, lowByte (s.frame f).generation, 0, 0, 0⟩)
      else (s, .plain .scrubbing) := by
  simp [claimFrame, hs, hr]

theorem claimFrame_reserved {s : State} {p q : Port} {f : Frame} (reserve : Bool)
    (hs : (s.frame f).state = .scrubbing) (hr : (s.frame f).reservation = some q) :
    claimFrame s p f reserve =
      if q = p then (s, ⟨.queued, lowByte (s.frame f).generation, 0, 0, 0⟩)
      else (s, .plain (if reserve then .reserved else .scrubbing)) := by
  cases reserve <;> simp [claimFrame, hs, hr]

/-! ## RELEASE (R16, R32) -/

theorem releaseBody_badArg {a : Args} (s : State) (p : Port) (h : 64 ≤ a.arg0.toNat) :
    releaseBody s p a = (s, .plain .badArg) := by
  simp [releaseBody, frameArg_out h]

/-- The checks of RELEASE in their order; past them the frame goes to the tail of the scrub queue. -/
theorem releaseBody_eq {a : Args} {f : Frame} (s : State) (p : Port) (hf : a.arg0.toNat = f.val) :
    releaseBody s p a =
      if (s.frame f).owner ≠ some p then (s, .plain .notOwner)
      else if (s.frame f).state = .offered then (s, .plain .offered)
      else if s.isRingFrame p f then (s, .plain .ringFrame)
      else ((s.sendToScrub f).withEvents .directory (revokeReaders (s.frame f) f p none .released), .plain .ok) := by
  simp only [releaseBody, frameArg_of_val hf, State.handOver_eq]

/-- With no port spared every reader of the frame is told. -/
theorem revokeReaders_all (r : FrameRecord) (f : Frame) (p : Port) (reason : RevokeReason) :
    revokeReaders r f p none reason =
      (allPorts.filter fun q => sel r.readers q).map fun q => (q, Event.readRevoked p f reason) := by
  have spared (q : Port) : (some q != none) = true := rfl
  simp only [revokeReaders, spared, Bool.and_true]

/-! ## FALLBACK (R18) -/

theorem fallbackBody_badArg {a : Args} (s : State) (p : Port) (h : frameArg a.arg0 = none ∨ fallbackArg a.arg1 = none) :
    fallbackBody s p a = (s, .plain .badArg) := by
  unfold fallbackBody
  split
  case h_1 hframe hheir => simp [hframe, hheir] at h
  case h_2 => rfl

theorem fallbackBody_none {a : Args} {f : Frame} (s : State) (p : Port) (hf : a.arg0.toNat = f.val)
    (hq : a.arg1 = 0x00FF) :
    fallbackBody s p a =
      if (s.frame f).owner ≠ some p then (s, .plain .notOwner)
      else (s.setFrame f { s.frame f with fallback := none }, .plain .ok) := by
  simp only [fallbackBody, frameArg_of_val hf, hq, fallbackArg_none]

theorem fallbackBody_port {a : Args} {f : Frame} {q : Port} (s : State) (p : Port) (hf : a.arg0.toNat = f.val)
    (hq : a.arg1.toNat = q.val) :
    fallbackBody s p a =
      if (s.frame f).owner ≠ some p then (s, .plain .notOwner)
      else if q = p then (s, .plain .self)
      else if !s.dirUp q then (s, .plain .peerDown)
      else (s.setFrame f { s.frame f with fallback := some q }, .plain .ok) := by
  simp only [fallbackBody, frameArg_of_val hf, fallbackArg_of_val hq]

/-! ## LEND and REVOKE (R20, R21) -/

theorem lendBody_badArg {a : Args} (s : State) (p : Port) (h : frameArg a.arg0 = none ∨ portArg a.arg1 = none) :
    lendBody s p a = (s, .plain .badArg) := by
  unfold lendBody
  split
  case h_1 hframe hport => simp [hframe, hport] at h
  case h_2 => rfl

theorem lendBody_eq {a : Args} {f : Frame} {q : Port} (s : State) (p : Port) (hf : a.arg0.toNat = f.val)
    (hq : a.arg1.toNat = q.val) :
    lendBody s p a =
      if (s.frame f).owner ≠ some p then (s, .plain .notOwner)
      else if q = p then (s, .plain .self)
      else if !s.dirUp q then (s, .plain .peerDown)
      else if sel (s.frame f).readers q then (s, .plain .ok)
      else
        ((s.setFrame f { s.frame f with readers := put (s.frame f).readers q true }).withEvents .directory
          [(q, Event.readGranted p f (s.frame f).generation)], .plain .ok) := by
  simp only [lendBody, frameArg_of_val hf, portArg_of_val hq, State.handOver_eq]

theorem revokeBody_badArg {a : Args} (s : State) (p : Port) (h : frameArg a.arg0 = none ∨ portArg a.arg1 = none) :
    revokeBody s p a = (s, .plain .badArg) := by
  unfold revokeBody
  split
  case h_1 hframe hport => simp [hframe, hport] at h
  case h_2 => rfl

theorem revokeBody_eq {a : Args} {f : Frame} {q : Port} (s : State) (p : Port) (hf : a.arg0.toNat = f.val)
    (hq : a.arg1.toNat = q.val) :
    revokeBody s p a =
      if (s.frame f).owner ≠ some p then (s, .plain .notOwner)
      else if !sel (s.frame f).readers q then (s, .plain .notFound)
      else
        ((s.setFrame f { s.frame f with readers := put (s.frame f).readers q false }).withEvents .directory
          [(q, Event.readRevoked p f .revoked)], .plain .ok) := by
  simp only [revokeBody, frameArg_of_val hf, portArg_of_val hq, State.handOver_eq]

/-! ## The statements -/

/-- Settles O6: the rows of the table are the branches of `claimFrame`, taken by the frame's state and reservation. -/
theorem claimAnswersByTable : Obligations.ClaimAnswersByTable := by
  intro s p a k hready
  have reply {t : State} {r : Reply} (hbody : claimBody s p a = (t, r)) (ht : t.commands = s.commands) :=
    takeCommand_replies hready (owns := (· == 0x01)) rfl hbody ht
  refine ⟨fun hout => reply (claimBody_badArg s p (hout.imp frameArg_out flagArg_out)) rfl, fun f reserve hf hr => ?_⟩
  have hbody := claimBody_eq s p hf hr
  refine ⟨fun hs hq => ?free, fun hs hq => ?freeQuota, fun hs ho => ?own, fun hs ho => ?taken, fun hs hn he => ?notReserved,
    fun hs hn he hq => ?reserve, fun hs hn he hq => ?reserveQuota, fun hs hn => ?queued, fun q hne hs hn => ?other⟩
  case free =>
    rw [claimFrame_free reserve hs, State.quotaFull_false_iff.mpr hq] at hbody
    exact reply hbody rfl
  case freeQuota =>
    rw [claimFrame_free reserve hs, State.quotaFull_iff.mpr hq] at hbody
    exact reply hbody rfl
  case own =>
    rw [claimFrame_held reserve hs, if_pos ho] at hbody
    exact reply hbody rfl
  case taken =>
    rw [claimFrame_held reserve hs, if_neg ho] at hbody
    exact reply hbody rfl
  case notReserved =>
    rw [claimFrame_unreserved reserve hs hn, he] at hbody
    exact reply hbody rfl
  case reserve =>
    rw [claimFrame_unreserved reserve hs hn, he, State.quotaFull_false_iff.mpr hq] at hbody
    exact reply hbody rfl
  case reserveQuota =>
    rw [claimFrame_unreserved reserve hs hn, he, State.quotaFull_iff.mpr hq] at hbody
    exact reply hbody rfl
  case queued =>
    rw [claimFrame_reserved reserve hs hn, if_pos rfl] at hbody
    exact reply hbody rfl
  case other =>
    rw [claimFrame_reserved reserve hs hn, if_neg hne] at hbody
    exact reply hbody rfl

/-- Settles O8: the checks of RELEASE in their order. -/
theorem releaseSendsFrameToScrub : Obligations.ReleaseSendsFrameToScrub := by
  intro s p a k hready
  have reply {t : State} {r : Reply} (hbody : releaseBody s p a = (t, r)) (ht : t.commands = s.commands) :=
    takeCommand_replies hready (owns := (· == 0x03)) rfl hbody ht
  refine ⟨fun hout => reply (releaseBody_badArg s p hout) rfl, fun f hf => ?_⟩
  have hbody := releaseBody_eq s p hf
  refine ⟨fun ho => ?notOwner, fun ho hs => ?offered, fun ho hs hring => ?ringFrame, fun ho hs hring => ?released⟩
  case notOwner =>
    rw [if_pos ho] at hbody
    exact reply hbody rfl
  case offered =>
    rw [if_neg (not_not.mpr ho), if_pos hs] at hbody
    exact reply hbody rfl
  case ringFrame =>
    rw [if_neg (not_not.mpr ho), if_neg hs, if_pos (State.isRingFrame_iff.mpr hring)] at hbody
    exact reply hbody rfl
  case released =>
    rw [if_neg (not_not.mpr ho), if_neg hs, if_neg (State.isRingFrame_iff.not.mpr hring), revokeReaders_all] at hbody
    exact reply hbody (State.withEvents_commands ..)

/-- Settles O10: the checks of FALLBACK in their order, of the argument that names no heir and of one that names a port. -/
theorem fallbackNamesHeir : Obligations.FallbackNamesHeir := by
  intro s p a k hready
  have reply {t : State} {r : Reply} (hbody : fallbackBody s p a = (t, r)) (ht : t.commands = s.commands) :=
    takeCommand_replies hready (owns := (· == 0x05)) rfl hbody ht
  refine ⟨fun hout => reply (fallbackBody_badArg s p (hout.imp frameArg_out fun h => fallbackArg_out h.1 h.2)) rfl,
    fun f hf => ⟨fun hq ho => ?_, fun hq ho => ?_, fun q hq => ?_⟩⟩
  · have hbody := fallbackBody_none s p hf hq
    rw [if_pos ho] at hbody
    exact reply hbody rfl
  · have hbody := fallbackBody_none s p hf hq
    rw [if_neg (not_not.mpr ho)] at hbody
    exact reply hbody rfl
  · have hbody := fallbackBody_port s p hf hq
    refine ⟨fun ho => ?notOwner, fun ho hself => ?self, fun ho hne hup => ?peerDown, fun ho hne hup => ?named⟩
    case notOwner =>
      rw [if_pos ho] at hbody
      exact reply hbody rfl
    case self =>
      rw [if_neg (not_not.mpr ho), if_pos hself] at hbody
      exact reply hbody rfl
    case peerDown =>
      rw [if_neg (not_not.mpr ho), if_neg hne, hup] at hbody
      exact reply hbody rfl
    case named =>
      rw [if_neg (not_not.mpr ho), if_neg hne, hup] at hbody
      exact reply hbody rfl

/-- Settles O12: the checks of LEND in their order. -/
theorem lendAddsReader : Obligations.LendAddsReader := by
  intro s p a k hready
  have reply {t : State} {r : Reply} (hbody : lendBody s p a = (t, r)) (ht : t.commands = s.commands) :=
    takeCommand_replies hready (owns := (· == 0x08)) rfl hbody ht
  refine ⟨fun hout => reply (lendBody_badArg s p (hout.imp frameArg_out portArg_out)) rfl, fun f q hf hq => ?_⟩
  have hbody := lendBody_eq s p hf hq
  refine ⟨fun ho => ?notOwner, fun ho hself => ?self, fun ho hne hup => ?peerDown, fun ho hne hup hr => ?already,
    fun ho hne hup hr => ?lent⟩
  case notOwner =>
    rw [if_pos ho] at hbody
    exact reply hbody rfl
  case self =>
    rw [if_neg (not_not.mpr ho), if_pos hself] at hbody
    exact reply hbody rfl
  case peerDown =>
    rw [if_neg (not_not.mpr ho), if_neg hne, hup] at hbody
    exact reply hbody rfl
  case already =>
    rw [if_neg (not_not.mpr ho), if_neg hne, hup, hr] at hbody
    exact reply hbody rfl
  case lent =>
    rw [if_neg (not_not.mpr ho), if_neg hne, hup, hr] at hbody
    exact reply hbody rfl

/-- Settles O13: the checks of REVOKE in their order. -/
theorem revokeRemovesReader : Obligations.RevokeRemovesReader := by
  intro s p a k hready
  have reply {t : State} {r : Reply} (hbody : revokeBody s p a = (t, r)) (ht : t.commands = s.commands) :=
    takeCommand_replies hready (owns := (· == 0x09)) rfl hbody ht
  refine ⟨fun hout => reply (revokeBody_badArg s p (hout.imp frameArg_out portArg_out)) rfl, fun f q hf hq => ?_⟩
  have hbody := revokeBody_eq s p hf hq
  refine ⟨fun ho => ?_, fun ho hr => ?_, fun ho hr => ?_⟩
  · rw [if_pos ho] at hbody
    exact reply hbody rfl
  · rw [if_neg (not_not.mpr ho), hr] at hbody
    exact reply hbody rfl
  · rw [if_neg (not_not.mpr ho), hr] at hbody
    exact reply hbody rfl

end Sys2Proof.Machine
end

section
/-! SUPPORT. The family of the offer protocol: what the bodies of OFFER, WITHDRAW, ACCEPT and PEEK give in each of their
cases, and the statements about them. -/

namespace Sys2Proof.Machine

/-! ## OFFER (R48, R53, R54) -/

theorem offerBody_badArg {a : Args} (s : State) (p : Port)
    (h : frameArg a.arg0 = none ∨ portArg a.arg1 = none ∨ classArg a.arg2 = none) :
    offerBody s p a = (s, .plain .badArg) := by
  unfold offerBody
  split
  case h_1 hframe hport hclass => simp [hframe, hport, hclass] at h
  case h_2 => rfl

/-- The checks of OFFER in their order; past them the offer is made. -/
theorem offerBody_eq {a : Args} {f : Frame} {q : Port} {c : OfferClass} (s : State) (p : Port)
    (hf : a.arg0.toNat = f.val) (hq : a.arg1.toNat = q.val) (hc : a.arg2.toNat = c.code.toNat) :
    offerBody s p a =
      if (s.frame f).owner ≠ some p then (s, .plain .notOwner)
      else if (s.frame f).state = .offered then (s, .plain .offered)
      else if q = p then (s, .plain .self)
      else if !s.dirUp q then (s, .plain .peerDown)
      else if s.isRingFrame p f then (s, .plain .ringFrame)
      else if 8 ≤ (s.inbox q).length then (s, .plain .inboxFull)
      else
        ((s.makeOffer ⟨f, p, q, c, a.arg3, a.arg3⟩).withEvents .directory
          [(q, Event.offerArrived p f (s.frame f).generation (s.frame f).label c)], .plain .ok) := by
  simp only [offerBody, frameArg_of_val hf, portArg_of_val hq, classArg_of_toNat hc, State.handOver_eq, Config.inboxSize]

theorem takeWhile_of_all_false {α : Type} {p : α → Bool} {l : List α} (h : ∀ x ∈ l, p x = false) :
    l.takeWhile p = [] ∧ l.dropWhile p = l := by
  cases l with
  | nil => exact ⟨rfl, rfl⟩
  | cons x l => simp [h x]

/-- The place of a new offer in an inbox that holds its URGENT offers first. -/
theorem placeInInbox_split {urgent : Frame → Bool} {urgents normals : List Frame}
    (hu : ∀ g ∈ urgents, urgent g = true) (hn : ∀ g ∈ normals, urgent g = false) (f : Frame) (c : OfferClass) :
    placeInInbox urgent (urgents ++ normals) f c =
      match c with
      | .urgent => urgents ++ f :: normals
      | .normal => urgents ++ normals ++ [f] := by
  obtain ⟨htake, hdrop⟩ := takeWhile_of_all_false hn
  cases c with
  | normal => rfl
  | urgent =>
    simp only [placeInInbox]
    rw [List.takeWhile_append_of_pos hu, List.dropWhile_append_of_pos hu, htake, hdrop, List.append_nil]

/-! ## WITHDRAW (R56) -/

theorem withdrawBody_badArg {a : Args} (s : State) (p : Port) (h : 64 ≤ a.arg0.toNat) :
    withdrawBody s p a = (s, .plain .badArg) := by
  simp [withdrawBody, frameArg_out h]

theorem withdrawBody_notOwner {s : State} {p : Port} {a : Args} {f : Frame} (hf : a.arg0.toNat = f.val)
    (ho : (s.frame f).owner ≠ some p) : withdrawBody s p a = (s, .plain .notOwner) := by
  simp [withdrawBody, frameArg_of_val hf, ho]

theorem withdrawBody_notOffered {s : State} {p : Port} {a : Args} {f : Frame} (hf : a.arg0.toNat = f.val)
    (ho : (s.frame f).owner = some p) (hn : (s.frame f).offer = none) :
    withdrawBody s p a = (s, .plain .notOffered) := by
  simp [withdrawBody, frameArg_of_val hf, ho, hn]

theorem withdrawBody_ok {s : State} {p : Port} {a : Args} {f : Frame} {o : Offer} (hf : a.arg0.toNat = f.val)
    (ho : (s.frame f).owner = some p) (hoffer : (s.frame f).offer = some o) :
    withdrawBody s p a =
      ((s.endOffer f).withEvents .directory [(o.recipient, Event.offerCancelled p f .withdrawn)], .plain .ok) := by
  simp [withdrawBody, frameArg_of_val hf, ho, hoffer, State.handOver_eq]

/-! ## ACCEPT (R57, R58) -/

theorem acceptBody_badArg {a : Args} (s : State) (p : Port) (h : 64 ≤ a.arg0.toNat) :
    acceptBody s p a = (s, .plain .badArg) := by
  simp [acceptBody, frameArg_out h]

theorem acceptBody_notFound {s : State} {p : Port} {a : Args} {f : Frame} (hf : a.arg0.toNat = f.val)
    (hi : s.inboxOffer p f = none) : acceptBody s p a = (s, .plain .notFound) := by
  simp [acceptBody, frameArg_of_val hf, hi]

theorem acceptBody_quota {s : State} {p : Port} {a : Args} {f : Frame} {o : Offer} (hf : a.arg0.toNat = f.val)
    (hi : s.inboxOffer p f = some o) (hq : s.AtQuota p) : acceptBody s p a = (s, .plain .quota) := by
  simp [acceptBody, frameArg_of_val hf, hi, State.quotaFull_iff.mpr hq]

theorem acceptBody_ok {s : State} {p : Port} {a : Args} {f : Frame} {o : Offer} (hf : a.arg0.toNat = f.val)
    (hi : s.inboxOffer p f = some o) (hq : ¬s.AtQuota p) :
    acceptBody s p a =
      (((s.setFrame f ((s.frame f).passed p)).leaveInbox o).withEvents .directory
          (revokeReaders (s.frame f) f o.offerer (some p) .ownerChanged ++
            [(o.offerer, Event.offerAccepted p f ((s.frame f).generation + 1))]),
        ⟨.ok, lowByte ((s.frame f).generation + 1), 0, 0, 0⟩) := by
  simp [acceptBody, frameArg_of_val hf, hi, State.quotaFull_false_iff.mpr hq, State.handOver_eq]

/-- With a port spared every other reader of the frame is told. -/
theorem revokeReaders_spared (r : FrameRecord) (f : Frame) (p q : Port) (reason : RevokeReason) :
    revokeReaders r f p (some q) reason =
      (allPorts.filter fun x => sel r.readers x && x != q).map fun x => (x, Event.readRevoked p f reason) := by
  have spared (x : Port) : (some x != some q) = (x != q) := rfl
  simp only [revokeReaders, spared]

/-! ## PEEK (R61, R202) -/

theorem peekBody_badArg {a : Args} (s : State) (p : Port) (h : 8 ≤ a.arg0.toNat) :
    peekBody s p a = (s, .plain .badArg) := by
  simp [peekBody, indexArg_out h]

theorem peekBody_notFound {s : State} {p : Port} {a : Args} (hin : a.arg0.toNat < 8)
    (hlen : (s.inbox p).length ≤ a.arg0.toNat) : peekBody s p a = (s, .plain .notFound) := by
  simp [peekBody, indexArg_in hin, List.getElem?_eq_none hlen]

theorem peekBody_ok {s : State} {p : Port} {a : Args} {f : Frame} {o : Offer} (hin : a.arg0.toNat < 8)
    (hf : (s.inbox p)[a.arg0.toNat]? = some f) (ho : (s.frame f).offer = some o) :
    peekBody s p a = (s, peekReply o (s.frame f)) := by
  simp only [peekBody, indexArg_in hin, hf, ho]

theorem frameField_toNat (f : Frame) : (frameField (some f)).toNat = f.val := by
  have := f.isLt
  simp [frameField]
  omega

theorem portField_toNat (p : Port) : (portField (some p)).toNat = p.val := by
  have := p.isLt
  simp [portField]
  omega

theorem OfferClass.code_getLsbD (c : OfferClass) : c.code.getLsbD 0 = (c == .urgent) := by cases c <;> rfl

theorem OfferClass.code_high (c : OfferClass) : c.code.extractLsb' 1 7 = 0 := by cases c <;> rfl

/-! ## The statements -/

/-- Settles O15: the checks of OFFER in their order; the new offer's place in the inbox is that of `placeInInbox_split`. -/
theorem offerEntersInbox : Obligations.OfferEntersInbox := by
  intro s p a k hready
  have reply {t : State} {r : Reply} (hbody : offerBody s p a = (t, r)) (ht : t.commands = s.commands) :=
    takeCommand_replies hready (owns := (· == 0x10)) rfl hbody ht
  refine ⟨fun hout => reply (offerBody_badArg s p (hout.imp frameArg_out (Or.imp portArg_out classArg_out))) rfl,
    fun f q c hf hq hc => ?_⟩
  have hbody := offerBody_eq s p hf hq hc
  refine ⟨fun ho => ?notOwner, fun ho hs => ?offered, fun ⟨ho, hs⟩ hself => ?self, fun ⟨ho, hs⟩ hne hup => ?peerDown,
    fun ⟨⟨ho, hs⟩, hne, hup⟩ hring => ?ringFrame, fun ⟨⟨ho, hs⟩, hne, hup⟩ hring hfull => ?inboxFull,
    fun urgents normals hsplit hu hn ⟨⟨ho, hs⟩, hne, hup⟩ hring hroom => ?made⟩
  case notOwner =>
    rw [if_pos ho] at hbody
    exact reply hbody rfl
  case offered =>
    rw [if_neg (not_not.mpr ho), if_pos hs] at hbody
    exact reply hbody rfl
  case self =>
    rw [if_neg (not_not.mpr ho), if_neg hs, if_pos hself] at hbody
    exact reply hbody rfl
  case peerDown =>
    rw [if_neg (not_not.mpr ho), if_neg hs, if_neg hne, hup] at hbody
    exact reply hbody rfl
  case ringFrame =>
    rw [if_neg (not_not.mpr ho), if_neg hs, if_neg hne, hup, State.isRingFrame_iff.mpr hring] at hbody
    exact reply hbody rfl
  case inboxFull =>
    rw [if_neg (not_not.mpr ho), if_neg hs, if_neg hne, hup, if_neg (State.isRingFrame_iff.not.mpr hring),
      if_pos hfull] at hbody
    exact reply hbody rfl
  case made =>
    rw [if_neg (not_not.mpr ho), if_neg hs, if_neg hne, hup, if_neg (State.isRingFrame_iff.not.mpr hring),
      if_neg (not_le.mpr hroom), State.makeOffer, hsplit, placeInInbox_split hu hn] at hbody
    exact reply hbody rfl

/-- Settles O16: the checks of WITHDRAW in their order; the state is that of the offer's end. -/
theorem withdrawReturnsFrame : Obligations.WithdrawReturnsFrame := by
  intro s p a k hready
  refine ⟨fun hout => ?_, fun f hf => ⟨fun ho => ?_, fun ho hn => ?_, fun o ho hoffer hframe => ?_⟩⟩
  · exact takeCommand_replies hready rfl (withdrawBody_badArg s p hout) rfl
  · exact takeCommand_replies hready rfl (withdrawBody_notOwner hf ho) rfl
  · exact takeCommand_replies hready rfl (withdrawBody_notOffered hf ho hn) rfl
  · have hbody := withdrawBody_ok hf ho hoffer
    rw [State.endOffer_some hoffer, hframe] at hbody
    exact takeCommand_replies hready rfl hbody rfl

/-- Settles O17: the cases of the offer that the caller's inbox holds, and of the caller's quota. -/
theorem acceptPassesFrame : Obligations.AcceptPassesFrame := by
  intro s p a k hready
  refine ⟨fun hout => ?badArg, fun f hf => ⟨fun hin => ?notHeld, fun hother => ?notTo, fun o hin hoffer hrec hframe =>
    ⟨fun hq => ?quota, fun hq => ?passed⟩⟩⟩
  case badArg => exact takeCommand_replies hready rfl (acceptBody_badArg s p hout) rfl
  case notHeld =>
    exact takeCommand_replies hready rfl (acceptBody_notFound hf (State.inboxOffer_eq_none_iff.mpr (.inl hin))) rfl
  case notTo =>
    exact takeCommand_replies hready rfl (acceptBody_notFound hf (State.inboxOffer_eq_none_iff.mpr (.inr hother))) rfl
  case quota =>
    exact takeCommand_replies hready rfl
      (acceptBody_quota hf (State.inboxOffer_eq_some_iff.mpr ⟨hin, hoffer, hrec⟩) hq) rfl
  case passed =>
    have hbody := acceptBody_ok hf (State.inboxOffer_eq_some_iff.mpr ⟨hin, hoffer, hrec⟩) hq
    rw [revokeReaders_spared, State.leaveInbox, hrec, hframe] at hbody
    exact takeCommand_replies hready rfl hbody (State.withEvents_commands ..)

/-- Settles O19: the words are those of `peekReply`, read field by field. -/
theorem peekShowsOffer : Obligations.PeekShowsOffer := by
  intro s p a k hready
  refine ⟨fun hout => takeCommand_replies hready rfl (peekBody_badArg s p hout) rfl,
    fun hin hlen => takeCommand_replies hready rfl (peekBody_notFound hin hlen) rfl, fun f o hin hf ho hframe => ?_⟩
  refine ⟨_, _, _, _, takeCommand_replies hready rfl (peekBody_ok hin hf ho) rfl, append_lowByte _ _, ?frame, rfl,
    ?offerer, (bit_above _ _ 0).trans o.cls.code_getLsbD, (field_above _ _ 1 7).trans o.cls.code_high, rfl⟩
  case frame =>
    rw [← hframe, ← frameField_toNat o.frame]
    exact congrArg BitVec.toNat (append_highByte _ _)
  case offerer =>
    rw [← portField_toNat o.offerer]
    exact congrArg BitVec.toNat (append_lowByte _ _)

end Sys2Proof.Machine
end

section
/-! SUPPORT. The families of the copy engine's ring commands, of POST, and of the Session Controller's and the Command
Unit's own commands: what their bodies give in each of their cases, and the statements about them. -/

namespace Sys2Proof.Machine

/-! ## RING_SETUP (R102) -/

theorem ringSetupBody_badArg {a : Args} (s : State) (p : Port)
    (h : frameArg a.arg0 = none ∨ ringFits a.arg1.toNat a.arg2.toNat = false) :
    ringSetupBody s p a = (s, .plain .badArg) := by
  unfold ringSetupBody
  split
  · rfl
  · rename_i f hframe
    rw [h.resolve_left (by simp [hframe])]
    rfl

/-- The checks of RING_SETUP in their order, past the range checks. -/
theorem ringSetupBody_eq {a : Args} {f : Frame} (s : State) (p : Port) (hf : a.arg0.toNat = f.val)
    (hfits : ringFits a.arg1.toNat a.arg2.toNat = true) :
    ringSetupBody s p a =
      if (s.ring p).state ≠ .unset then (s, .plain .ringState)
      else if (s.frame f).owner ≠ some p then (s, .plain .notOwner)
      else if (s.frame f).state ≠ .owned then (s, .plain .offered)
      else (s.setRing p ⟨.idle, some ⟨f, a.arg1.toNat, a.arg2.toNat⟩, 0, .ok, false⟩, .plain .ok) := by
  simp only [ringSetupBody, frameArg_of_val hf, hfits, Bool.not_true, Bool.false_eq_true, if_false]

/-! ## The other ring commands (R103 to R107) -/

theorem ringKickBody_active {s : State} {p : Port} (a : Args) (h : (s.ring p).state = .active) :
    ringKickBody s p a =
      if s.fetchInProgress p then (s.setRing p { s.ring p with kickNoted := true }, .plain .ok) else (s, .plain .ok) := by
  simp only [ringKickBody, h]

theorem ringStopBody_active {s : State} {p : Port} (a : Args) (h : (s.ring p).state = .active) :
    ringStopBody s p a =
      if s.jobCurrent p then (s.setRing p { s.ring p with state := .stopping, kickNoted := false }, .plain .ok)
      else (s.setRing p { s.ring p with state := .stopped }, .plain .ok) := by
  simp only [ringStopBody, h]

/-- The ring states that RING_KICK and RING_STOP read no further than the state of. -/
theorem ringKickBody_rest {s : State} {p : Port} (a : Args) :
    ((s.ring p).state = .idle → ringKickBody s p a = (s.setRing p { s.ring p with state := .active }, .plain .ok)) ∧
      ((s.ring p).state = .stopping → ringKickBody s p a = (s, .plain .ok)) ∧
      ((s.ring p).state = .stopped ∨ (s.ring p).state = .unset → ringKickBody s p a = (s, .plain .ringState)) := by
  refine ⟨fun h => ?_, fun h => ?_, fun h => ?_⟩
  · simp only [ringKickBody, h]
  · simp only [ringKickBody, h]
  · rcases h with h | h <;> simp only [ringKickBody, h]

theorem ringStopBody_rest {s : State} {p : Port} (a : Args) :
    ((s.ring p).state = .idle → ringStopBody s p a = (s.setRing p { s.ring p with state := .stopped }, .plain .ok)) ∧
      ((s.ring p).state = .stopping ∨ (s.ring p).state = .stopped → ringStopBody s p a = (s, .plain .ok)) ∧
      ((s.ring p).state = .unset → ringStopBody s p a = (s, .plain .ringState)) := by
  refine ⟨fun h => ?_, fun h => ?_, fun h => ?_⟩
  · simp only [ringStopBody, h]
  · rcases h with h | h <;> simp only [ringStopBody, h]
  · simp only [ringStopBody, h]

/-- RING_STATUS shows the codes of the ring's state and of its last status, the latter in the low byte (R202). -/
theorem ringStatusReply_eq (r : Ring) :
    ringStatusReply r =
      ⟨.ok,
        match r.state with
          | .unset => 0
          | .idle => 1
          | .active => 2
          | .stopping => 3
          | .stopped => 4,
        BitVec.ofNat 16 r.head,
        match r.lastStatus with
          | .ok => 0
          | .badDescriptor => 1
          | .noSourceRight => 2
          | .noDestRight => 3
          | .stale => 4
          | .accessLost => 5, 0⟩ := by
  have hstatus : lowByte r.lastStatus.code =
      match r.lastStatus with
        | .ok => 0
        | .badDescriptor => 1
        | .noSourceRight => 2
        | .noDestRight => 3
        | .stale => 4
        | .accessLost => 5 := by
    cases r.lastStatus <;> rfl
  rw [ringStatusReply, hstatus]
  rfl

/-! ## POST (R138 to R140) -/

theorem postBody_badArg {a : Args} (s : State) (p : Port) (h : 4 ≤ a.arg0.toNat) :
    postBody s p a = (s, .plain .badArg) := by
  simp [postBody, portArg_out h]

theorem postBody_peerDown {s : State} {p q : Port} {a : Args} (hq : a.arg0.toNat = q.val)
    (hup : (s.session q).state ≠ .up) : postBody s p a = (s, .plain .peerDown) := by
  simp [postBody, portArg_of_val hq, State.isUp_false_iff.mpr hup]

/-- The notice is placed in the target's queue as an event that arrives is. -/
theorem postBody_placed {s : State} {p q : Port} {a : Args} (hq : a.arg0.toNat = q.val)
    (hup : (s.session q).state = .up) :
    postBody s p a =
      (s.placed q (Event.notice p (s.session p).number a.arg1),
        .plain (if (s.queue q).accepts then .ok else .dropped)) := by
  simp [postBody, portArg_of_val hq, State.isUp_iff.mpr hup, ← State.arrive_eq, State.arrive]

@[simp] theorem State.placed_commands (s : State) (p : Port) (e : EventRecord) :
    (s.placed p e).commands = s.commands := by
  obtain ⟨v, hv⟩ := s.placed_rest p e
  rw [hv]

/-! ## The statements -/

/-- Settles O21: the checks of RING_SETUP in their order. -/
theorem ringSetupConfigures : Obligations.RingSetupConfigures := by
  intro s p a k hready
  have reply {t : State} {r : Reply} (hbody : ringSetupBody s p a = (t, r)) (ht : t.commands = s.commands) :=
    takeCommand_replies hready (owns := (· == 0x28)) rfl hbody ht
  refine ⟨fun hout => reply (ringSetupBody_badArg s p (hout.imp frameArg_out fun hout => ?unfit)) rfl,
    fun f hf hsize halign hend => ?_⟩
  case unfit =>
    rw [← Bool.not_eq_true, ringFits_iff]
    rintro ⟨hsize, halign, hend⟩
    rcases hout with hout | hout | hout
    · exact hout hsize
    · exact hout halign
    · omega
  have hbody := ringSetupBody_eq s p hf (ringFits_iff.mpr ⟨hsize, halign, hend⟩)
  refine ⟨fun hr => ?_, fun hr ho => ?_, fun hr ho hs => ?_, fun hr ho hs => ?_⟩
  · rw [if_pos hr] at hbody
    exact reply hbody rfl
  · rw [if_neg (not_not.mpr hr), if_pos ho] at hbody
    exact reply hbody rfl
  · rw [if_neg (not_not.mpr hr), if_neg (not_not.mpr ho), if_pos hs] at hbody
    exact reply hbody rfl
  · rw [if_neg (not_not.mpr hr), if_neg (not_not.mpr ho), if_neg (not_not.mpr hs)] at hbody
    exact reply hbody rfl

/-- Settles O22: each clause is the branch of the body that the ring's state selects, and for RING_KICK and RING_STOP of an
ACTIVE ring the state of the engine. -/
theorem ringCommandsByState : Obligations.RingCommandsByState := by
  intro s p a k
  refine ⟨fun hready => ?kick, fun hready => ?stop, fun hready => ?restart, fun hready => ?teardown, fun hready => ?status⟩
  case kick =>
    obtain ⟨hidle, hstopping, hrefused⟩ := ringKickBody_rest (s := s) (p := p) a
    refine ⟨fun h => takeCommand_replies hready rfl (hidle h) rfl, fun h hfetch => ?_, fun h hfetch => ?_,
      fun h => takeCommand_replies hready rfl (hstopping h) rfl, fun h => takeCommand_replies hready rfl (hrefused h) rfl⟩
    · have hbody := ringKickBody_active a h
      rw [if_pos (State.fetchInProgress_iff.mpr hfetch)] at hbody
      exact takeCommand_replies hready rfl hbody rfl
    · have hbody := ringKickBody_active a h
      rw [if_neg (State.fetchInProgress_iff.not.mpr hfetch)] at hbody
      exact takeCommand_replies hready rfl hbody rfl
  case stop =>
    obtain ⟨hidle, hstopping, hrefused⟩ := ringStopBody_rest (s := s) (p := p) a
    refine ⟨fun h hcurrent => ?_, fun h hcurrent => ?_, fun h => takeCommand_replies hready rfl (hidle h) rfl,
      fun h => takeCommand_replies hready rfl (hstopping h) rfl, fun h => takeCommand_replies hready rfl (hrefused h) rfl⟩
    · have hbody := ringStopBody_active a h
      rw [if_pos (State.jobCurrent_iff.mpr hcurrent)] at hbody
      exact takeCommand_replies hready rfl hbody rfl
    · have hbody := ringStopBody_active a h
      rw [if_neg (State.jobCurrent_iff.not.mpr hcurrent)] at hbody
      exact takeCommand_replies hready rfl hbody rfl
  case restart =>
    exact ⟨fun h => takeCommand_replies hready rfl (body := ringRestartBody) (if_pos h) rfl,
      fun h => takeCommand_replies hready rfl (body := ringRestartBody) (if_neg h) rfl⟩
  case teardown =>
    exact ⟨fun h => takeCommand_replies hready rfl (body := ringTeardownBody) (if_pos h) rfl,
      fun hidle hstopped => takeCommand_replies hready rfl (body := ringTeardownBody)
        (if_neg (not_or.mpr ⟨hidle, hstopped⟩)) rfl⟩
  case status =>
    have hbody : ringStatusBody s p a = (s, _) := congrArg (Prod.mk s) (ringStatusReply_eq (s.ring p))
    exact takeCommand_replies hready rfl hbody rfl

/-- Settles O23: the target is UP or it is not, and where it is its queue accepts the notice or it does not. -/
theorem postPlacesNotice : Obligations.PostPlacesNotice := by
  intro s p a k hready
  refine ⟨fun hout => ?_, fun q hq => ⟨fun hup => ?_, fun hup hroom => ?_, fun hup hroom => ?_⟩⟩
  · exact takeCommand_replies hready rfl (postBody_badArg s p hout) rfl
  · exact takeCommand_replies hready rfl (postBody_peerDown hq hup) rfl
  · have hbody := postBody_placed (p := p) hq hup
    rw [if_pos (EventPort.accepts_iff.mpr hroom)] at hbody
    exact takeCommand_replies hready rfl hbody (State.placed_commands ..)
  · have hbody := postBody_placed (p := p) hq hup
    rw [if_neg (EventPort.accepts_iff.not.mpr hroom)] at hbody
    exact takeCommand_replies hready rfl hbody (State.placed_commands ..)

/-- Settles O24: DETACH is the port's entry to CLOSING; the Command Unit answers a code without an owning block. -/
theorem detachAndUnknown : Obligations.DetachAndUnknown := by
  intro s p a k
  refine ⟨fun hready => ?_, fun code hcode hready => ?_⟩
  · exact takeCommand_replies hready rfl (body := detachBody) rfl rfl
  · exact takeCommand_replies hready (unknownCode_iff.mpr hcode) (body := unknownBody) rfl rfl

end Sys2Proof.Machine
end

section
/-! SUPPORT. The family of the bus cycles and the control space: a cycle that is not taken, the writes of CMD, IE, PSEL and
EVPOP, a control write at any offset, and what a control read shows. -/

namespace Sys2Proof.Machine

/-! ## Cycles that are not taken (R186) -/

theorem State.rdyHigh_iff {s : State} {p : Port} :
    s.rdyHigh p = true ↔ (s.window p).reading = none ∧ (s.window p).delayed = none := by
  simp [State.rdyHigh]

/-- With the part out of reset a happening is its act; in reset it is nothing. -/
theorem whileRunning_eq {s t : State} {act : State → State} (h : act s = t) :
    whileRunning s act = .next (if s.rstLow then s else t) := by
  rw [← h]
  rfl

/-- An edge of WR# that is not taken: the lines go where RD# is high and the part is out of reset. -/
theorem State.releasedUnless_running (s : State) (p : Port) (rdLow : Bool) :
    (if s.rstLow then s else s.releasedUnless p rdLow) =
      if rdLow then s else if s.rstLow then s else s.linesReleased p := by
  cases rdLow
  · rfl
  · exact ite_self s

/-! ## The writes of single registers (R78, R132, R145, R152 to R159) -/

/-- A taken write of one register acts on the state with the lines released. -/
theorem controlEdge_taken {s : State} {p : Port} (h : s.Taken p) (write : State → State) :
    whileRunning s (fun s => s.controlEdge p cselAlone write) = .next (write (s.linesReleased p)) := by
  rw [whileRunning_high h.1, (s.controlEdge_eq p write).1 h]
  rfl

theorem State.writeCmd_unselected (s : State) (p : Port) (v : Word) : s.writeCmd p v false = s := rfl

theorem State.writeCmd_up {s : State} {p : Port} (v : Word) (hup : (s.session p).state = .up) :
    s.writeCmd p v true =
      s.setCommand p (if (s.command p).pendingCmd.isNone then (s.command p).accepting (v.extractLsb' 0 8)
        else (s.command p).overrunning) := by
  cases hp : (s.command p).pendingCmd <;> simp [State.writeCmd, State.isUp_iff.mpr hup, hp]

theorem State.writeCmd_closing {s : State} {p : Port} {rejoin : Bool} {step : TeardownStep} (v : Word)
    (hs : (s.session p).state = .closing rejoin step) :
    s.writeCmd p v true = s.setCommand p ((s.command p).refusing (v.extractLsb' 0 8)) := by
  simp [State.writeCmd, State.isUp, State.isClosing, hs]

/-- The lane and the session state that a write of IE or of PSEL needs. -/
theorem State.writeEnabled_iff {s : State} {p : Port} {lo : Bool} :
    (lo && s.isUp p) = true ↔ lo = true ∧ (s.session p).state = .up := by
  rw [Bool.and_eq_true, State.isUp_iff]

theorem EventPort.pop_cons {q : EventPort} {e : EventRecord} {rest : List EventRecord} (h : q.ordinary = e :: rest) :
    q.pop = { q with ordinary := rest } := by
  simp [EventPort.pop, h]

theorem EventPort.pop_nil {q : EventPort} (h : q.ordinary = []) : q.pop = { q with overflow := none } := by
  simp [EventPort.pop, h]

theorem toFin_of_mod {v : Word} {n : Fin 4} (h : v.toNat % 4 = n.val) : (v.extractLsb' 0 2).toFin = n := by
  apply Fin.ext
  simpa using h

/-! ## A control write at an offset (R162, R165) -/

/-- A write that reaches none of the registers that can be written. -/
theorem State.registerWrite_other (s : State) (p : Port) {offset : Nat} (v : Word) (lo hi : Bool)
    (h : offset ∉ [0x06, 0x08, 0x10, 0x12, 0x14, 0x16, 0x18, 0x38]) : s.registerWrite p offset v lo hi = s := by
  simp only [List.mem_cons, List.not_mem_nil, or_false, not_or] at h
  obtain ⟨hie, hpsel, hcmd, h0, h1, h2, h3, hpop⟩ := h
  have hargs : (s.command p).args.write offset v lo hi = (s.command p).args := by
    unfold Args.write
    split <;> first | rfl | contradiction
  have hsame : s.setCommand p (s.command p) = s := by
    unfold State.setCommand State.command
    rw [put_sel]
  unfold State.registerWrite
  split <;> first | contradiction | rw [hargs]; exact hsame

/-! ## The statements -/

/-- Settles O25: an edge that R186 does not take leaves the state but for the lines of an earlier read. -/
theorem untakenCycleChangesNothing : Obligations.UntakenCycleChangesNothing := by
  intro s p a v lo hi b h
  refine ⟨State.rdyHigh_iff, whileRunning_eq (act := fun s => s.readEdge p a b) ((s.readEdge_eq p a).2.2 b h), fun c hc => ?_, fun hcsel c hc => ?_⟩
  · have hedge : whileRunning s (fun s => s.writeEdge p a v ⟨lo, hi⟩ b) = _ :=
      whileRunning_eq (act := fun s => s.writeEdge p a v ⟨lo, hi⟩ b) ((s.writeEdge_eq p a v ⟨lo, hi⟩).2.2 b h)
    rw [s.releasedUnless_running] at hedge
    fin_cases hc <;> exact hedge
  · have hlevels : ¬s.Taken p ∨ b.otherLow = true ∨ b.wselLow = true := by rwa [hcsel] at h
    have hedge (write : State → State) :
        whileRunning s (fun s => s.controlEdge p ⟨b.wselLow, b.otherLow⟩ write) =
          .next (if b.otherLow then s else if s.rstLow then s else s.linesReleased p) := by
      rw [← s.releasedUnless_running]
      exact whileRunning_eq (act := fun s => s.controlEdge p ⟨b.wselLow, b.otherLow⟩ write) ((s.controlEdge_eq p write).2 ⟨b.wselLow, b.otherLow⟩ hlevels)
    fin_cases hc <;> exact hedge _

/-- Settles O26: the three rows are the one write of CMD, by the lane, the session state and the pending command. -/
theorem cmdWriteAnswered : Obligations.CmdWriteAnswered := by
  intro s p v lo hi htaken c t code written row hrow
  have hedge : exec row s = .next (t.writeCmd p v lo) := by
    fin_cases hrow <;> exact controlEdge_taken htaken fun t => t.writeCmd p v lo
  refine ⟨fun hlo => ?_, fun hlo hup hnone => ?_, fun k hlo hup hk => ?_, fun rejoin step hlo hclosing => ?_⟩
  · rw [hedge, hlo, State.writeCmd_unselected]
  · have hpending : (t.command p).pendingCmd.isNone = true := Option.isNone_iff_eq_none.mpr hnone
    rw [hedge, hlo, State.writeCmd_up (s := t) v hup, if_pos hpending]
    rfl
  · have hpending : (t.command p).pendingCmd = some k := hk
    rw [hedge, hlo, State.writeCmd_up (s := t) v hup, if_neg (by simp [hpending]), CommandBlock.overrunning, hpending]
    rfl
  · rw [hedge, hlo, State.writeCmd_closing (s := t) v hclosing]
    rfl

/-- Settles O27: IE and PSEL are written with the low lane at an UP port, EVPOP with either lane. -/
theorem iePselEvpopWrites : Obligations.IePselEvpopWrites := by
  intro s p v lo hi htaken t q up
  have henabled : (lo && (s.linesReleased p).isUp p) = true ↔ up := State.writeEnabled_iff (s := t)
  have hie := controlEdge_taken htaken fun t => t.writeIe p v lo
  have hpsel := controlEdge_taken htaken fun t => t.writePsel p v lo
  have hpop := controlEdge_taken htaken fun t => t.writeEvpop p lo hi
  refine ⟨fun hup => hie.trans ?_, fun hup => hie.trans ?_, fun profile hv hup => hpsel.trans ?_,
    fun hup => hpsel.trans ?_, fun hlo hhi => hpop.trans ?_, fun hlane => ⟨fun e rest hq => hpop.trans ?_,
      fun hq => hpop.trans ?_⟩⟩
  · rw [State.writeIe, if_pos (henabled.mpr hup)]
    rfl
  · rw [State.writeIe, if_neg (henabled.not.mpr hup)]
  · rw [State.writePsel, if_pos (henabled.mpr hup), toFin_of_mod hv]
    simp [State.setWindow, State.linesReleased, State.window, t]
  · rw [State.writePsel, if_neg (henabled.not.mpr hup)]
  · rw [State.writeEvpop, hlo, hhi]
    rfl
  · rw [State.writeEvpop, if_pos (Bool.or_eq_true_iff.mpr hlane), EventPort.pop_cons (q := t.queue p) hq]
    rfl
  · rw [State.writeEvpop, if_pos (Bool.or_eq_true_iff.mpr hlane), EventPort.pop_nil (q := t.queue p) hq]
    rfl

/-- Settles O28: a control write is the write of the register that its offset names. -/
theorem registerWriteByOffset : Obligations.RegisterWriteByOffset := by
  intro s p a v lo hi htaken t c offset lanes args row
  have hrow : row = .next (t.registerWrite p offset v lo hi) := by
    have hedge := (s.writeEdge_eq p a v ⟨lo, hi⟩).2.1 htaken
    show whileRunning s (fun s => s.writeEdge p a v ⟨lo, hi⟩ controlLevels) = _
    rw [whileRunning_high htaken.1, hedge]
    rfl
  refine ⟨fun b => rfl, fun ho => ⟨_, mergeLanes_bytes _ v lo hi, ?_⟩, fun ho => ⟨_, mergeLanes_bytes _ v lo hi, ?_⟩,
    fun ho => ⟨_, mergeLanes_bytes _ v lo hi, ?_⟩, fun ho => ⟨_, mergeLanes_bytes _ v lo hi, ?_⟩, fun ho => ?_,
    fun ho => ?_, fun ho => ?_, fun ho => ?_, fun ho => ?_⟩
  · rw [hrow, ho]
    rfl
  · rw [hrow, ho]
    rfl
  · rw [hrow, ho]
    rfl
  · rw [hrow, ho]
    rfl
  · rw [hrow, ho]
    exact (controlEdge_taken htaken fun t => t.writeIe p v lo).symm
  · rw [hrow, ho]
    exact (controlEdge_taken htaken fun t => t.writePsel p v lo).symm
  · rw [hrow, ho]
    exact (controlEdge_taken htaken fun t => t.writeCmd p v lo).symm
  · rw [hrow, ho]
    exact (controlEdge_taken htaken fun t => t.writeEvpop p lo hi).symm
  · rw [hrow, State.registerWrite_other _ _ _ _ _ ho]

end Sys2Proof.Machine
end

section
/-! SUPPORT. What a control read shows: the fields of each register's word, and the statement about the whole control space. -/

namespace Sys2Proof.Machine

/-! ## Fields as numbers -/

theorem lowByte_toNat (b : Byte) : (lowByte b).toNat = b.toNat := by
  have := b.isLt
  rw [lowByte, BitVec.toNat_setWidth]
  omega

theorem flagWord_toNat (b : Bool) : (flagWord b).toNat = b.toNat := by cases b <;> rfl

theorem lowByte_fields (b : Byte) : (lowByte b).extractLsb' 0 8 = b ∧ (lowByte b).extractLsb' 8 8 = 0 := by
  revert b
  decide

/-! ## What a port sees of its window unit (R97) -/

theorem State.shown_up {s : State} {p : Port} (h : (s.session p).state = .up) :
    s.shownFault p = (s.window p).fault ∧ s.shownProfile p = (s.window p).active := by
  simp [State.shownFault, State.shownProfile, State.isClosing_of_up h]

theorem State.shown_closing {s : State} {p : Port} (hup : (s.session p).state ≠ .up)
    (hdown : (s.session p).state ≠ .down) : s.shownFault p = none ∧ s.shownProfile p = 0 := by
  have hclosing : s.isClosing p = true := by
    rw [State.isClosing_iff]
    cases hs : (s.session p).state
    case up => exact absurd hs hup
    case down => exact absurd hs hdown
    case closing rejoin step => exact ⟨rejoin, step, hs⟩
  simp [State.shownFault, State.shownProfile, hclosing]

/-! ## The head view (R133, R135, R201) -/

theorem EventPort.headWords_cons {q : EventPort} {e : EventRecord} {rest : List EventRecord}
    (h : q.ordinary = e :: rest) : q.headWords = e.words := by
  simp only [EventPort.headWords, EventPort.head?, h]

/-- The words of the OVERFLOW event: its kind code, no port, no frame, and the count of the events lost. -/
theorem Event.overflow_words (n : Word) : (Event.overflow n).words = ⟨0x0011, 0xFFFF, 0x0000, n⟩ := by
  have hkind : ((0x00 : Byte) ++ (0x11 : Byte) : Word) = 0x0011 := by decide
  have hnone : ((0xFF : Byte) ++ (0xFF : Byte) : Word) = 0xFFFF := by decide
  have hzero : ((0x00 : Byte) ++ (0x00 : Byte) : Word) = 0x0000 := by decide
  rw [← hkind, ← hnone, ← hzero]
  rfl

theorem EventPort.headWords_overflow {q : EventPort} {n : Word} (h : q.ordinary = []) (ho : q.overflow = some n) :
    q.headWords = ⟨0x0011, 0xFFFF, 0x0000, n⟩ := by
  simp only [EventPort.headWords, EventPort.head?, h, ho, Option.map_some]
  exact Event.overflow_words n

theorem EventPort.headWords_empty {q : EventPort} (h : q.ordinary = []) (ho : q.overflow = none) :
    q.headWords = ⟨0x0000, 0xFFFF, 0x0000, 0x0000⟩ := by
  simp only [EventPort.headWords, EventPort.head?, h, ho]
  rfl

theorem EventRecord.words_fields (e : EventRecord) :
    (e.words.word0.extractLsb' 0 8 = e.kind.code ∧ e.words.word0.extractLsb' 8 8 = e.reason) ∧
      (e.words.word1.extractLsb' 0 8 = portField e.port ∧ e.words.word1.extractLsb' 8 8 = frameField e.frame) ∧
      (e.words.word2.extractLsb' 0 8 = e.generation ∧ e.words.word2.extractLsb' 8 8 = e.session) ∧
      e.words.word3 = e.value :=
  ⟨⟨append_lowByte _ _, append_highByte _ _⟩, ⟨append_lowByte _ _, append_highByte _ _⟩,
    ⟨append_lowByte _ _, append_highByte _ _⟩, rfl⟩

theorem EventPort.held_toNat {q : EventPort} (h : q.ordinary.length ≤ 31) :
    (BitVec.ofNat 16 q.held).toNat = q.ordinary.length + q.overflow.isSome.toNat := by
  have hheld : q.held = q.ordinary.length + q.overflow.isSome.toNat := by
    cases ho : q.overflow <;> simp [EventPort.held, ho]
  have hle := q.overflow.isSome.toNat_le
  rw [hheld, BitVec.toNat_ofNat]
  omega

/-! ## The statement -/

/-- A control read that is taken shows the register's word on the data lines. -/
theorem exec_controlRead {s : State} {p : Port} (a : BitVec 15) (h : s.Taken p) :
    exec (.windowRead p (.falls a controlLevels)) s =
      .next { s with windows := put s.windows p { s.window p with
        dataOut := some (s.registerRead p (controlOffset a)) } } := by
  have hedge := (s.readEdge_eq p a).2.1 h
  have hexec : exec (.windowRead p (.falls a controlLevels)) s =
      whileRunning s fun s => s.readEdge p a controlLevels := rfl
  rw [hexec, whileRunning_high h.1, hedge]
  rfl

/-- Settles O29: the word shown is the register's, and its fields are read off the register's word. -/
theorem controlReadsShowState : Obligations.ControlReadsShowState := by
  intro s p a htaken offset c up
  refine ⟨s.registerRead p offset, exec_controlRead a htaken, ?_⟩
  generalize offset = offset
  obtain ⟨-, hdown, -⟩ := htaken
  have shown (hup : ¬up ∨ (s.window p).fault = none) : s.shownFault p = none := by
    by_cases h : up
    · rw [(State.shown_up h).1]
      exact hup.resolve_left (not_not.mpr h)
    · exact (State.shown_closing h hdown).1
  refine ⟨?id0, ?id1, ?session, ?ie, ?psel, ?cmd, ?arg0, ?arg1, ?arg2, ?arg3, ?status, ?res0, ?res1, ?res2, ?res3,
    ?evEmpty, fun e rest hq => ?evHead, fun n hq ho => ?evOverflow, ?evCount, fun ho hup => ?fltEmpty,
    fun r hup hr => ?flt, registerRead_other s p⟩
  case id0 => rintro rfl; rfl
  case id1 =>
    rintro rfl
    obtain ⟨h0, h4, h6, h7, h8⟩ := idWord_fields 0x40 0 s.splitQuota (BitVec.ofNat 2 p.val) 1
    refine ⟨h0, (congrArg BitVec.toNat h4).trans ?_, h6, h7, h8⟩
    have := p.isLt
    rw [BitVec.toNat_ofNat]
    omega
  case session => rintro rfl; exact lowByte_toNat _
  case ie => rintro rfl; exact flagWord_toNat _
  case psel =>
    rintro rfl
    have hval : (s.shownProfile p).val = if up then (s.window p).active.val else 0 := by
      split
      · rw [(State.shown_up ‹_›).2]
      · rw [(State.shown_closing ‹_› hdown).2]
        rfl
    have := (s.shownProfile p).isLt
    rw [← hval, registerRead_psel, BitVec.toNat_ofNat]
    omega
  case cmd => rintro rfl; exact lowByte_toNat _
  case arg0 => rintro rfl; rfl
  case arg1 => rintro rfl; rfl
  case arg2 => rintro rfl; rfl
  case arg3 => rintro rfl; rfl
  case status => rintro rfl; exact flagsWord_fields _ _ _ _
  case res0 => rintro rfl; rfl
  case res1 => rintro rfl; rfl
  case res2 => rintro rfl; rfl
  case res3 => rintro rfl; rfl
  case evEmpty =>
    intro ho hq hoverflow
    have hwords := EventPort.headWords_empty hq hoverflow
    simp only [List.mem_cons, List.not_mem_nil, or_false] at ho
    rcases ho with rfl | rfl | rfl | rfl
    · rw [registerRead_ev0, hwords]; rfl
    · rw [registerRead_ev1, hwords]; rfl
    · rw [registerRead_ev2, hwords]; rfl
    · rw [registerRead_ev3, hwords]; rfl
  case evHead =>
    obtain ⟨h0, h1, h2, h3⟩ := e.words_fields
    rw [← EventPort.headWords_cons hq] at h0 h1 h2 h3
    refine ⟨?_, ?_, ?_, ?_⟩ <;> rintro rfl
    exacts [h0, h1, h2, h3]
  case evOverflow =>
    have hwords := EventPort.headWords_overflow hq ho
    refine ⟨?_, ?_, ?_, ?_⟩ <;> rintro rfl
    · rw [registerRead_ev0, hwords]
    · rw [registerRead_ev1, hwords]
    · rw [registerRead_ev2, hwords]
    · rw [registerRead_ev3, hwords]
  case evCount =>
    rintro rfl hlen
    exact EventPort.held_toNat hlen
  case fltEmpty =>
    have hfault := shown hup
    simp only [List.mem_cons, List.not_mem_nil, or_false] at ho
    rcases ho with rfl | rfl | rfl | rfl
    · rw [registerRead_flt0, hfault]; rfl
    · rw [registerRead_flt1, hfault]; rfl
    · rw [registerRead_flt2, hfault]; rfl
    · rw [registerRead_flt3, hfault]; rfl
  case flt =>
    have hfault : s.shownFault p = some r := (State.shown_up hup).1.trans hr
    refine ⟨?_, ?_, ?_, ?_⟩ <;> rintro rfl
    · rw [registerRead_flt0, hfault]
      exact faultWord_fields _ _ _ _
    · rw [registerRead_flt1, hfault]
      rfl
    · rw [registerRead_flt2, hfault]
      exact lowByte_fields _
    · rw [registerRead_flt3, hfault]
      rfl

end Sys2Proof.Machine
end

section
/-! SUPPORT. The family of the window accesses: the check of an access, a window read and a window write when they are taken,
a delayed access, and an access carried out at its grant. -/

namespace Sys2Proof.Machine

/-! ## The check of an access (R75, R86, R87) -/

theorem slotOf_eq {a : BitVec 15} {slot : Fin 16} (h : slot.val = a.toNat / 2048) : slotOf a = slot := by
  have := a.isLt
  apply Fin.ext
  simp only [slotOf, byteAddr_eq, BitVec.val_toFin, BitVec.extractLsb'_toNat, BitVec.toNat_ofNat,
    Nat.shiftRight_eq_div_pow]
  omega

theorem offsetOf_eq {a : BitVec 15} {offset : BitVec 12} (h : offset.toNat = 2 * (a.toNat % 2048)) :
    offsetOf a = offset := by
  have := a.isLt
  apply BitVec.eq_of_toNat_eq
  simp only [offsetOf, byteAddr_eq, BitVec.extractLsb'_toNat, BitVec.toNat_ofNat, Nat.shiftRight_eq_div_pow]
  omega

theorem State.checkAccess_closing {s : State} {p : Port} (a : BitVec 15) (dir : Direction)
    (hup : (s.session p).state ≠ .up) : s.checkAccess p a dir = .faulted .closing none := by
  simp [State.checkAccess, State.isUp_false_iff.mpr hup]

theorem State.checkAccess_unmapped {s : State} {p : Port} {a : BitVec 15} (dir : Direction)
    (hup : (s.session p).state = .up) (he : sel (sel (s.window p).profiles (s.window p).active) (slotOf a) = none) :
    s.checkAccess p a dir = .faulted .unmapped none := by
  simp [State.checkAccess, State.isUp_iff.mpr hup, WindowUnit.entry, he]

theorem State.checkAccess_entry {s : State} {p : Port} {a : BitVec 15} {e : SlotEntry} (dir : Direction)
    (hup : (s.session p).state = .up) (he : sel (sel (s.window p).profiles (s.window p).active) (slotOf a) = some e) :
    s.checkAccess p a dir = checkRights (s.frame e.frame) p e dir (offsetOf a) := by
  simp [State.checkAccess, State.isUp_iff.mpr hup, WindowUnit.entry, he]

/-- Settles O30: the orders of R86 are the branches of `State.checkAccess` and, with a valid entry, of `checkRights`. -/
theorem windowAccessOutcome : Obligations.WindowAccessOutcome := by
  intro s p a dir slot offset hslot hoffset w entry
  obtain rfl := slotOf_eq hslot
  obtain rfl := offsetOf_eq hoffset
  refine ⟨State.checkAccess_closing a dir, fun hup he => State.checkAccess_unmapped dir hup he, fun e hup he => ?_⟩
  rw [State.checkAccess_entry dir hup he]
  intro r held owner reader
  rw [show s.frame e.frame = r from rfl]
  clear_value r
  have notEmpty (h : held) : ¬(r.state = .scrubbing ∨ r.state = .free) := by rcases h with h | h <;> simp [h]
  have allowed (h : owner ∨ reader) : ¬(r.owner ≠ some p ∧ sel r.readers p = false) := by
    rintro ⟨ho, hr⟩
    rcases h with h | h
    · exact ho h
    · rw [h] at hr
      cases hr
  unfold checkRights
  refine ⟨fun h => ?noFrame, fun h ho hr => ?noRight, fun h hor hdir => ?read, fun h hr hdir => ?reader,
    fun h ho hr hdir hacc => ?readOnly, fun ho hr hdir hacc hs => ?suspended, fun ho hr hdir hacc hs => ?write⟩
  case noFrame => rw [if_pos h.symm]
  case noRight => rw [if_neg (notEmpty h), if_pos ⟨ho, Bool.not_eq_true _ ▸ hr⟩]
  case read => rw [if_neg (notEmpty h), if_neg (allowed hor), if_neg (by simp [hdir]), if_neg (by simp [hdir])]
  case reader => rw [if_neg (notEmpty h), if_neg (allowed (.inr hr)), if_pos ⟨hdir, .inr hr⟩]
  case readOnly => rw [if_neg (notEmpty h), if_neg (allowed (.inl ho)), if_pos ⟨hdir, .inl hacc⟩]
  case suspended =>
    have hwritable : ¬(dir = .write ∧ (e.access = .ro ∨ sel r.readers p = true)) := by
      rintro ⟨-, h | h⟩
      · rw [hacc] at h
        cases h
      · exact hr h
    rw [if_neg (notEmpty (.inr hs)), if_neg (allowed (.inl ho)), if_neg hwritable, if_pos ⟨hdir, hs⟩]
  case write =>
    have hwritable : ¬(dir = .write ∧ (e.access = .ro ∨ sel r.readers p = true)) := by
      rintro ⟨-, h | h⟩
      · rw [hacc] at h
        cases h
      · exact hr h
    rw [if_neg (notEmpty (.inl hs)), if_neg (allowed (.inl ho)), if_neg hwritable, if_neg (by simp [hs])]

/-! ## The fault record (R92, R97) -/

theorem State.recordFault_closing (s : State) (p : Port) (addr : Word) (f : Option Frame) (dir : Direction) :
    s.recordFault p .closing addr f dir = s := if_pos rfl

@[simp] theorem State.setWindow_setWindow (s : State) (p : Port) (w v : WindowUnit) :
    (s.setWindow p w).setWindow p v = s.setWindow p v := by
  simp [State.setWindow]

/-- The first fault of a unit is recorded and told. -/
theorem State.recordFault_first (s : State) {p : Port} {v : WindowUnit} {kind : FaultKind} (addr : Word)
    (f : Option Frame) (dir : Direction) (hk : kind ≠ .closing) (hf : v.fault = none) :
    (s.setWindow p v).recordFault p kind addr f dir =
      (s.setWindow p { v with
        fault := some { kind := kind, addr := addr, frame := f, direction := dir, count := 0 } }).withEvents
          (.windowUnit p) [(p, Event.fault kind addr)] := by
  simp [State.recordFault, hk, hf, FaultRecord.noted, State.handOver_eq]

/-- A fault behind the first is counted only. -/
theorem State.recordFault_next (s : State) {p : Port} {v : WindowUnit} {kind : FaultKind} {r : FaultRecord} (addr : Word)
    (f : Option Frame) (dir : Direction) (hk : kind ≠ .closing) (hf : v.fault = some r) :
    (s.setWindow p v).recordFault p kind addr f dir =
      s.setWindow p { v with
        fault := some { r with count := if r.count.toNat = 65535 then r.count else r.count + 1 } } := by
  simp [State.recordFault, hk, hf, FaultRecord.noted, saturatingNext_eq]

/-! ## The bus of a port -/

/-- Two units of a port that differ at the data lines and at the delayed access only. -/
def WindowUnit.SameBus (w v : WindowUnit) : Prop :=
  v.profiles = w.profiles ∧ v.active = w.active ∧ v.fault = w.fault ∧ v.hold = w.hold

/-- What taking an access does with a port's unit: the lines, the read in flight, the delayed access and the hold are all
decided. -/
theorem State.setBus_setWindow {s : State} {p : Port} {v : WindowUnit} (h : (s.window p).SameBus v) (data : Option Word)
    (reading : Option WordPlace) (delayed : Option DelayedAccess) (hold : Option HeldWrite) :
    (s.setWindow p v).setBus p data reading delayed hold = s.setBus p data reading delayed hold := by
  obtain ⟨hprofiles, hactive, hfault, -⟩ := h
  simp [State.setBus, hprofiles, hactive, hfault]

theorem State.checkAccess_setWindow {s : State} {p : Port} {v : WindowUnit} (h : (s.window p).SameBus v) (a : BitVec 15)
    (dir : Direction) : (s.setWindow p v).checkAccess p a dir = s.checkAccess p a dir := by
  obtain ⟨hprofiles, hactive, -, -⟩ := h
  refine State.checkAccess_congr (s := s) (t := s.setWindow p v) rfl ?_ ?_ rfl a dir
  · rw [State.setWindow_window_same, hprofiles]
  · rw [State.setWindow_window_same, hactive]

theorem State.takeRead_setWindow {s : State} {p : Port} {v : WindowUnit} (h : (s.window p).SameBus v) (a : BitVec 15)
    (rdLow : Bool) : (s.setWindow p v).takeRead p a rdLow = s.takeRead p a rdLow := by
  have hold : v.hold = (s.window p).hold := h.2.2.2
  simp only [State.takeRead, State.checkAccess_setWindow h, State.setBus_setWindow h, State.setWindow_window_same, hold]

theorem State.takeWrite_setWindow {s : State} {p : Port} {v : WindowUnit} (h : (s.window p).SameBus v) (a : BitVec 15)
    (data : Word) (lo hi : Bool) : (s.setWindow p v).takeWrite p a data lo hi = s.takeWrite p a data lo hi := by
  have hold : v.hold = (s.window p).hold := h.2.2.2
  simp only [State.takeWrite, State.checkAccess_setWindow h, State.setBus_setWindow h, State.setWindow_window_same, hold]

/-- With no read in flight and no access waiting, what a taken access decides is the lines and the hold. -/
theorem State.setBus_idle {s : State} {p : Port} (hr : (s.window p).reading = none) (hd : (s.window p).delayed = none)
    (data : Option Word) (hold : Option HeldWrite) :
    s.setBus p data none none hold = s.setWindow p { s.window p with dataOut := data, hold := hold } := by
  simp only [State.setBus, ← hr, ← hd]

/-! ## Window reads (R85, R187, R189) -/

theorem sameBus_released (w : WindowUnit) : w.SameBus { w with dataOut := none } := ⟨rfl, rfl, rfl, rfl⟩

theorem sameBus_undelayed (w : WindowUnit) : w.SameBus { w with delayed := none } := ⟨rfl, rfl, rfl, rfl⟩

/-- A window read's cycle that is taken: it waits behind a held write, else it is taken. -/
theorem exec_windowRead {s : State} {p : Port} (a : BitVec 15) (h : s.Taken p) :
    exec (.windowRead p (.falls a windowLevels)) s =
      .next (if (s.window p).hold.isSome then s.delay p ⟨.read, a, 0, false, false⟩ else s.takeRead p a true) := by
  have hedge := (s.readEdge_eq p a).1 h
  have hexec : exec (.windowRead p (.falls a windowLevels)) s =
      whileRunning s fun s => s.readEdge p a windowLevels := rfl
  have hbus := sameBus_released (s.window p)
  rw [hexec, whileRunning_high h.1, hedge, State.releaseLines, State.readCycle, State.takeRead_setWindow hbus, State.delay,
    State.setWindow_window_same, State.setBus_setWindow hbus]
  rfl

/-- A window write's cycle that is taken: it waits behind a held write, else it is taken. -/
theorem exec_windowWrite {s : State} {p : Port} (a : BitVec 15) (v : Word) (lo hi : Bool) (h : s.Taken p) :
    exec (.windowWrite p a v ⟨lo, hi⟩ windowLevels) s =
      .next (if (s.window p).hold.isSome then s.delay p ⟨.write, a, v, lo, hi⟩ else s.takeWrite p a v lo hi) := by
  have hedge := (s.writeEdge_eq p a v ⟨lo, hi⟩).1 h
  have hexec : exec (.windowWrite p a v ⟨lo, hi⟩ windowLevels) s =
      whileRunning s fun s => s.writeEdge p a v ⟨lo, hi⟩ windowLevels := rfl
  have hbus := sameBus_released (s.window p)
  rw [hexec, whileRunning_high h.1, hedge, State.releaseLines, State.writeCycle, State.takeWrite_setWindow hbus,
    State.delay, State.setWindow_window_same, State.setBus_setWindow hbus]
  rfl

section

variable {s : State} {p : Port}

theorem State.takeRead_faulted {a : BitVec 15} {kind : FaultKind} {f : Option Frame} (rdLow : Bool)
    (hr : (s.window p).reading = none) (hd : (s.window p).delayed = none)
    (h : s.checkAccess p a .read = .faulted kind f) :
    s.takeRead p a rdLow =
      (s.setWindow p { s.window p with dataOut := if rdLow then some 0xFFFF else none }).recordFault p kind (byteAddr a) f
        .read := by
  simp only [State.takeRead, h, State.setBus_idle hr hd]

theorem State.takeRead_performed {a : BitVec 15} {place : WordPlace} (rdLow : Bool)
    (h : s.checkAccess p a .read = .performed place) :
    s.takeRead p a rdLow = (s.setBus p none (some place) none (s.window p).hold).present (.port p) := by
  simp only [State.takeRead, h]

theorem State.takeWrite_faulted {a : BitVec 15} {kind : FaultKind} {f : Option Frame} (v : Word) (lo hi : Bool)
    (hr : (s.window p).reading = none) (hd : (s.window p).delayed = none)
    (h : s.checkAccess p a .write = .faulted kind f) :
    s.takeWrite p a v lo hi =
      (s.setWindow p { s.window p with dataOut := none }).recordFault p kind (byteAddr a) f .write := by
  simp only [State.takeWrite, h, State.setBus_idle hr hd]

theorem State.takeWrite_performed {a : BitVec 15} {place : WordPlace} (v : Word) (lo hi : Bool)
    (hr : (s.window p).reading = none) (hd : (s.window p).delayed = none)
    (h : s.checkAccess p a .write = .performed place) :
    s.takeWrite p a v lo hi =
      (s.setWindow p { s.window p with dataOut := none, hold := some ⟨place, v, lo, hi⟩ }).present (.port p) := by
  simp only [State.takeWrite, h, State.setBus_idle hr hd]

end

/-- Settles O31: the hold decides whether the read waits; where it does not, its check and the fault record decide. -/
theorem windowReadTaken : Obligations.WindowReadTaken := by
  intro s p a htaken w addr bus
  have hrow := exec_windowRead a htaken
  obtain ⟨-, -, -, hr, hd⟩ := htaken
  have faulted {kind : FaultKind} {f : Option Frame} (hnone : w.hold = none)
      (h : s.checkAccess p a .read = .faulted kind f) :
      exec (.windowRead p (.falls a windowLevels)) s =
        .next ((bus { w with dataOut := some 0xFFFF }).recordFault p kind addr f .read) := by
    rw [hrow, if_neg (by simp [show (s.window p).hold = none from hnone]), State.takeRead_faulted true hr hd h, byteAddr_eq]
    rfl
  refine ⟨fun h hh => ?held, fun f hnone h => ?closing, fun kind f hnone h hk hf => ?first,
    fun kind f r hnone h hk hf => ?next, fun place hnone h => ?performed⟩
  case held =>
    rw [hrow, if_pos (Option.isSome_iff_exists.mpr ⟨h, hh⟩)]
    rfl
  case closing => rw [faulted hnone h, State.recordFault_closing]
  case first =>
    rw [faulted hnone h]
    exact congrArg _ (s.recordFault_first addr f .read hk hf)
  case next =>
    rw [faulted hnone h]
    exact congrArg _ (s.recordFault_next addr f .read hk hf)
  case performed =>
    rw [hrow, if_neg (by simp [show (s.window p).hold = none from hnone]), State.takeRead_performed true h, State.setBus,
      ← hd]
    rfl

/-- Settles O32: the hold decides whether the write waits; where it does not, its check and the fault record decide. -/
theorem windowWriteTaken : Obligations.WindowWriteTaken := by
  intro s p a v lo hi htaken w addr bus row
  have hrow := exec_windowWrite a v lo hi htaken
  obtain ⟨-, -, -, hr, hd⟩ := htaken
  have faulted {kind : FaultKind} {f : Option Frame} (hnone : w.hold = none)
      (h : s.checkAccess p a .write = .faulted kind f) : row = .next ((bus w).recordFault p kind addr f .write) := by
    refine hrow.trans ?_
    rw [if_neg (by simp [show (s.window p).hold = none from hnone]), State.takeWrite_faulted v lo hi hr hd h, byteAddr_eq]
    rfl
  refine ⟨fun h hh => ?held, fun f hnone h => ?closing, fun kind f hnone h hk hf => ?first,
    fun kind f r hnone h hk hf => ?next, fun place hnone h => ?performed⟩
  case held =>
    refine hrow.trans ?_
    rw [if_pos (Option.isSome_iff_exists.mpr ⟨h, hh⟩)]
    rfl
  case closing => rw [faulted hnone h, State.recordFault_closing]
  case first =>
    rw [faulted hnone h]
    exact congrArg _ (s.recordFault_first addr f .write hk hf)
  case next =>
    rw [faulted hnone h]
    exact congrArg _ (s.recordFault_next addr f .write hk hf)
  case performed =>
    refine hrow.trans ?_
    rw [if_neg (by simp [show (s.window p).hold = none from hnone]), State.takeWrite_performed v lo hi hr hd h]
    rfl

end Sys2Proof.Machine
end

section
/-! SUPPORT. The family of the window accesses, continued: an access that has waited behind a held write, and an access
carried out at its grant. -/

namespace Sys2Proof.Machine

/-! ## A delayed access (R85, R187, R189) -/

/-- Recording a fault leaves the lines to be released as before. -/
theorem State.recordFault_linesReleased (s : State) (p : Port) (kind : FaultKind) (addr : Word) (f : Option Frame)
    (dir : Direction) :
    (s.recordFault p kind addr f dir).linesReleased p = (s.linesReleased p).recordFault p kind addr f dir := by
  have hwindow : (s.linesReleased p).window p = { s.window p with dataOut := none } := s.releaseLines_window p
  have hset (w : WindowUnit) : (s.setWindow p w).linesReleased p = (s.linesReleased p).setWindow p { w with dataOut := none } := by
    simp [State.linesReleased, State.setWindow, State.window]
  by_cases hk : kind = .closing
  · rw [hk, State.recordFault_closing, State.recordFault_closing]
  · unfold State.recordFault
    rw [if_neg hk, if_neg hk, hwindow]
    dsimp only
    split
    · exact congrArg (fun t : State => t.handOver (.windowUnit p) [(p, Event.fault kind addr)]) (hset _)
    · exact hset _

/-- With RD# high the word of a faulted read does not stay on the lines. -/
theorem State.takeRead_rdHigh (s : State) (p : Port) (a : BitVec 15) :
    s.takeRead p a false = (s.takeRead p a true).linesReleased p := by
  have hset (data : Option Word) (reading : Option WordPlace) :
      (s.setBus p data reading none (s.window p).hold).linesReleased p =
        s.setBus p none reading none (s.window p).hold := by
    simp [State.linesReleased, State.setBus, State.setWindow, State.window]
  unfold State.takeRead
  split
  · rw [State.recordFault_linesReleased, if_pos rfl, if_neg nofun, hset]
  · exact congrArg (fun t : State => t.present (.port p)) (hset none _).symm

/-- Settles O33: the access is taken as one is with nothing waiting, since neither the lines nor the waiting decide it. -/
theorem delayedAccessTaken : Obligations.DelayedAccessTaken := by
  intro s p d rdLow hrst hstate hprst hr hh hd undelayed
  have hbus := sameBus_undelayed (s.window p)
  have htaken : undelayed.Taken p := by
    have hw : undelayed.window p = _ := s.setWindow_window_same p _
    refine ⟨hrst, hstate, hprst, ?_, ?_⟩ <;> rw [hw]
    exact hr
  have hhold : ¬(undelayed.window p).hold.isSome = true := by simp [undelayed, hh]
  have read (rdLow : Bool) (hdir : d.direction = .read) :
      exec (.delayedWindowAccess p rdLow) s = .next (s.takeRead p d.a rdLow) := by
    have hrow : exec (.delayedWindowAccess p rdLow) s = execDelayedWindowAccess p rdLow s := rfl
    rw [hrow, execDelayedWindowAccess, whileRunning_high hrst]
    simp only [hd, hh, hdir]
  have write (hdir : d.direction = .write) :
      exec (.delayedWindowAccess p rdLow) s = .next (s.takeWrite p d.a d.data d.lo d.hi) := by
    have hrow : exec (.delayedWindowAccess p rdLow) s = execDelayedWindowAccess p rdLow s := rfl
    rw [hrow, execDelayedWindowAccess, whileRunning_high hrst]
    simp only [hd, hh, hdir]
  refine ⟨fun hdir => ⟨_, ?_, read true hdir, ?_⟩, fun hdir => ⟨_, ?_, write hdir⟩⟩
  · rw [exec_windowRead d.a htaken, if_neg hhold, State.takeRead_setWindow hbus]
  · rw [read false hdir, State.takeRead_rdHigh]
  · rw [exec_windowWrite d.a d.data d.lo d.hi htaken, if_neg hhold, State.takeWrite_setWindow hbus]

/-! ## An access carried out at its grant (R88, R187, R188, R190) -/

theorem State.holds_iff {s : State} {c : Claimant} : s.holds c = true ↔ s.arbiter.array = .held c := by
  simp [State.holds]

/-- A held write changes the bytes of its lanes and no other. -/
theorem Memory.read_writeLanes {m : Memory} {h : HeldWrite} (hm : m.wf = true) (heven : h.place.offset.toNat % 2 = 0)
    (x : Nat) :
    Memory.read (Memory.writeLanes m h) x =
      if x = h.place.addr ∧ h.lo = true then h.data.extractLsb' 0 8
      else if x = h.place.addr + 1 ∧ h.hi = true then h.data.extractLsb' 8 8
      else m.read x := by
  have hin : h.place.addr + 1 < Config.arrayBytes := by
    have hoffset := h.place.offset.isLt
    have hframe := h.place.frame.isLt
    simp only [WordPlace.addr, arrayAddr, Config.frameBytes, Config.arrayBytes]
    omega
  unfold Memory.writeLanes
  cases h.lo <;> cases h.hi <;> simp only [if_true, if_false, Bool.false_eq_true, and_true, and_false]
  · exact Memory.read_write hm hin
  · exact Memory.read_write hm (by omega)
  · rw [Memory.read_write (Memory.write_wf hm) hin, Memory.read_write hm (by omega)]
    split <;> split <;> first | rfl | omega

/-- Settles O34: the rise of RD# releases the lines; at the grant the read's word is taken, or the held write's lanes are
written. -/
theorem grantedAccessCarriedOut : Obligations.GrantedAccessCarriedOut := by
  refine ⟨fun s p hrst => whileRunning_high hrst fun s => s.releaseLines p, ?_⟩
  intro s p rdLow hrst hheld w ended addr
  refine ⟨fun place hr => ?_, fun h hh heven hm => ⟨Memory.writeLanes s.mem h, ?_, fun x => Memory.read_writeLanes hm heven x⟩⟩
  · have hr : (s.window p).reading = some place := hr
    have hrow : exec (.readCarriedOut p rdLow) s = execReadCarriedOut p rdLow s := rfl
    rw [hrow, execReadCarriedOut, whileRunning_high hrst]
    simp only [hr, State.holds_iff.mpr hheld, if_true]
    rfl
  · have hh : (s.window p).hold = some h := hh
    have hrow : exec (.writeCarriedOut p) s = execWriteCarriedOut p s := rfl
    rw [hrow, execWriteCarriedOut, whileRunning_high hrst]
    simp only [hh, State.holds_iff.mpr hheld, if_true]
    rfl

end Sys2Proof.Machine
end

section
/-! SUPPORT. The families of the SRAM Arbiter and of the Scrub Engine: the cyclic order of the ports, a claim's arrival and
its grant, the end of a grant, the start of a scrub, the end of a piece, and scrub done. -/

namespace Sys2Proof.Machine

/-! ## The cyclic order of the ports (R111, R194) -/

/-- The ports by their distance from the port after `p`. -/
theorem port_cyclic (p q : Port) :
    (q - p - 1 = 0 ∧ q = p + 1) ∨ (q - p - 1 = 1 ∧ q = p + 2) ∨ (q - p - 1 = 2 ∧ q = p + 3) ∨ (q - p - 1 = 3 ∧ q = p) := by
  revert p q
  decide

theorem port_distance (p : Port) :
    p + 1 - p - 1 = 0 ∧ p + 2 - p - 1 = 1 ∧ p + 3 - p - 1 = 2 := by
  revert p
  decide

/-- The port found after `p` is the one that passes the test at the least distance. -/
theorem find_portsAfter {test : Port → Bool} {p q : Port} (hq : test q = true)
    (hmin : ∀ r, test r = true → (q - p - 1).val ≤ (r - p - 1).val) : (portsAfter p).find? test = some q := by
  have before {r : Port} (h : (r - p - 1).val < (q - p - 1).val) : test r = false :=
    Bool.eq_false_iff.mpr fun hr => absurd (hmin r hr) (not_le.mpr h)
  obtain ⟨h1, h2, h3⟩ := port_distance p
  have first (h : 0 < (q - p - 1).val) : test (p + 1) = false := before (by rw [h1]; exact h)
  have second (h : 1 < (q - p - 1).val) : test (p + 2) = false := before (by rw [h2]; exact h)
  have third (h : 2 < (q - p - 1).val) : test (p + 3) = false := before (by rw [h3]; exact h)
  rcases port_cyclic p q with ⟨hd, rfl⟩ | ⟨hd, rfl⟩ | ⟨hd, rfl⟩ | ⟨hd, rfl⟩ <;> rw [hd] at first second third
  · simp [portsAfter, hq]
  · simp [portsAfter, hq, first (by decide)]
  · simp [portsAfter, hq, first (by decide), second (by decide)]
  · simp [portsAfter, hq, first (by decide), second (by decide), third (by decide)]

/-! ## Grants (R193, R194, R124) -/

/-- The engine's claim is for a fetch or a write-back of a port that is not UP. -/
def State.GrantReturned (s : State) (j : JobPlace) : Prop :=
  (s.copy.engine = .fetching j ∨ ∃ x, s.copy.engine = .writing x ∧ x.place = j) ∧ (s.session j.port).state ≠ .up

theorem State.GrantReturned.readsSession {s : State} {j : JobPlace} (h : s.GrantReturned j) :
    s.copy.engine.readsSessionAtGrant = some j.port := by
  rcases h.1 with he | ⟨x, he, rfl⟩ <;> rw [he] <;> rfl

theorem State.grantReturned_of_readsSession {s : State} {p : Port}
    (h : s.copy.engine.readsSessionAtGrant = some p) (hup : s.isUp p = false) : ∃ j, s.GrantReturned j := by
  have hdown := State.isUp_false_iff.mp hup
  cases he : s.copy.engine <;> rw [he] at h <;> cases h
  case fetching j => exact ⟨j, .inl he, hdown⟩
  case writing x => exact ⟨x.place, .inr ⟨x, he, rfl⟩, hdown⟩

/-- A grant that is not returned changes the arbiter alone. -/
theorem State.grantClaim_kept {s : State} {c : Claimant} (h : ¬(c = .copy ∧ ∃ j, s.GrantReturned j)) :
    s.grantClaim c = s.setArbiter (s.arbiter.grant c) := by
  unfold State.grantClaim
  split
  · rename_i p hreads
    split
    · rfl
    · rename_i hup
      exact absurd ⟨rfl, State.grantReturned_of_readsSession hreads (Bool.eq_false_iff.mpr hup)⟩ h
  · rfl

/-- A returned grant: the claim's job is gone, and no kick noted is kept. -/
theorem State.grantClaim_returned {s : State} {j : JobPlace} (h : s.GrantReturned j) :
    s.grantClaim .copy =
      State.withoutJob { s with
        arbiter := { s.arbiter.grant .copy with array := .ended }
        copy := { s.copy with rings := put s.copy.rings j.port { s.ring j.port with kickNoted := false } } } j.port := by
  have hup : ¬s.isUp j.port = true := Bool.eq_false_iff.mp (State.isUp_false_iff.mpr h.2)
  simp only [State.grantClaim, h.readsSession, if_neg hup, State.finishJob_eq]
  rfl

/-! ## The choice at the end of a grant (R194) -/

theorem Arbiter.choose_engine {b : Arbiter} (h : ∀ p, .port p ∉ b.waiting) :
    b.choose =
      if b.waiting.contains .copy && b.waiting.contains .scrub then
        if b.lastEngine = .copy then some .scrub else some .copy
      else if b.waiting.contains .copy then some .copy
      else if b.waiting.contains .scrub then some .scrub
      else none := by
  unfold Arbiter.choose
  rw [Arbiter.no_port h]
  cases b.lastEngine <;> rfl

theorem Arbiter.choose_copyAndScrub {b : Arbiter} (h : ∀ p, .port p ∉ b.waiting) (hc : .copy ∈ b.waiting)
    (hs : .scrub ∈ b.waiting) : b.choose = some (if b.lastEngine = .copy then .scrub else .copy) := by
  rw [Arbiter.choose_engine h]
  simp only [List.contains_iff_mem.mpr hc, List.contains_iff_mem.mpr hs, Bool.and_self, if_true]
  split <;> rfl

theorem Arbiter.choose_copy {b : Arbiter} (h : ∀ p, .port p ∉ b.waiting) (hc : .copy ∈ b.waiting)
    (hs : .scrub ∉ b.waiting) : b.choose = some .copy := by
  rw [Arbiter.choose_engine h]
  simp [hc, hs]

theorem Arbiter.choose_scrub {b : Arbiter} (h : ∀ p, .port p ∉ b.waiting) (hc : .copy ∉ b.waiting)
    (hs : .scrub ∈ b.waiting) : b.choose = some .scrub := by
  rw [Arbiter.choose_engine h]
  simp [hc, hs]

theorem Arbiter.choose_none {b : Arbiter} (h : b.waiting = []) : b.choose = none := by
  rw [Arbiter.choose_engine fun p => by simp [h]]
  simp [h]

theorem exec_arrival {s : State} (c : Claimant) (hrst : s.rstLow = false) :
    exec (.arbiterGrant (.arrival c)) s =
      .next (if s.canArrive c then
        if s.arbiter.array = .free ∧ s.arbiter.waiting = [] then
          (s.setArbiter { s.arbiter with presented := s.arbiter.presented.erase c }).grantClaim c
        else s.setArbiter { s.arbiter with
          presented := s.arbiter.presented.erase c, waiting := s.arbiter.waiting ++ [c] }
      else s) :=
  whileRunning_high hrst _

theorem exec_endOfGrant {s : State} (hrst : s.rstLow = false) (he : s.arbiter.array = .ended) :
    exec (.arbiterGrant .endOfGrant) s =
      .next (match s.arbiter.choose with
        | some c => s.grantClaim c
        | none => s.setArbiter { s.arbiter with array := .free }) :=
  (whileRunning_high hrst _).trans (congrArg _ (if_pos he))

/-- Settles O35: the arrival by the array and the claims waiting, the end of a grant by the choice among them; what each
grant does is `State.grantClaim_kept` and `State.grantClaim_returned`. -/
theorem arbiterGrantsByRule : Obligations.ArbiterGrantsByRule := by
  intro s hrst b won returned outcome reaches waits
  have hwon (b : Arbiter) (c : Claimant) : b.grant c = won b c := by cases c <;> rfl
  have granted (b : Arbiter) (c : Claimant) : outcome b c ((s.setArbiter b).grantClaim c) := by
    refine ⟨fun h => ?_, fun j hc hj => ?_⟩
    · rw [State.grantClaim_kept (s := s.setArbiter b) h, ← hwon]
      rfl
    · subst hc
      rw [State.grantClaim_returned (s := s.setArbiter b) (j := j) hj]
      rfl
  have hwaits : waits ↔ ∃ p f, Claimant.port p ∈ s.arbiter.presented ∧ s.scrub.queue.head? = some f ∧
      (s.window p).reaches f = true := by
    simp only [WindowUnit.reaches_iff]
    rfl
  refine ⟨fun h => ?waits, ?arrival, ?ended⟩
  case waits =>
    rw [exec_arrival .scrub hrst, if_neg]
    rw [State.canArrive_scrub]
    exact fun hcan => hcan.2 (hwaits.mp h)
  case arrival =>
    intro c hc hnot arrived
    have hcan : s.canArrive c = true := by
      by_cases hs : c = .scrub
      · subst hs
        exact (State.canArrive_scrub s).mpr ⟨hc, fun h => hnot ⟨rfl, hwaits.mpr h⟩⟩
      · exact (s.canArrive_of_ne c hs).mpr hc
    rw [exec_arrival c hrst, if_pos hcan]
    refine ⟨fun hfree hempty => ⟨_, congrArg _ (if_pos ⟨hfree, hempty⟩), granted arrived c⟩, fun h => ?_⟩
    rw [if_neg (not_and_or.mpr h)]
    rfl
  case ended =>
    intro he ends noPort
    have hends : ends = .next (match b.choose with
        | some c => s.grantClaim c
        | none => s.setArbiter { b with array := .free }) := exec_endOfGrant hrst he
    have chosen {c : Claimant} (h : b.choose = some c) : ∃ t, ends = .next t ∧ outcome b c t :=
      ⟨s.grantClaim c, by rw [hends, h], granted b c⟩
    refine ⟨fun p hp hmin => chosen (Arbiter.choose_port (find_portsAfter ?_ ?_)),
      fun hport hcopy hscrub => chosen (Arbiter.choose_copyAndScrub hport hcopy hscrub),
      fun hport hcopy hscrub => chosen (Arbiter.choose_copy hport hcopy hscrub),
      fun hport hcopy hscrub => chosen (Arbiter.choose_scrub hport hcopy hscrub), fun hempty => ?_⟩
    · exact List.contains_iff_mem.mpr hp
    · exact fun q hq => hmin q (List.contains_iff_mem.mp hq)
    · rw [hends, Arbiter.choose_none hempty]
      rfl

end Sys2Proof.Machine
end

section
/-! SUPPORT. The family of the Scrub Engine: the start of a scrub, the end of a piece, and scrub done. -/

namespace Sys2Proof.Machine

/-! ## A piece's bytes (R36) -/

/-- A piece's end makes its own bytes zero and changes no other. -/
theorem Memory.read_piece {m : Memory} {f : Frame} {n : Nat} (hm : m.wf = true) (hn : n < 16) (x : Nat) :
    Memory.read (Memory.writeBytes m (pieceAddr f n) pieceZeros) x =
      if f.val * 4096 + n * 256 ≤ x ∧ x < f.val * 4096 + n * 256 + 256 then 0 else m.read x := by
  have hframe := f.isLt
  have haddr : pieceAddr f n = f.val * 4096 + n * 256 := rfl
  have hlen : pieceZeros.length = 256 := by
    simp only [pieceZeros, List.length_replicate, Config.pieceBytes]
  have hin : pieceAddr f n + pieceZeros.length ≤ Config.arrayBytes := by
    rw [haddr, hlen, Config.arrayBytes]
    omega
  rw [Memory.read_writeBytes hm hin]
  by_cases hx : f.val * 4096 + n * 256 ≤ x ∧ x < f.val * 4096 + n * 256 + 256
  · rw [dif_pos (by rwa [haddr, hlen]), if_pos hx]
    simp only [pieceZeros, List.getElem_replicate]
  · rw [dif_neg (by rwa [haddr, hlen]), if_neg hx]

/-! ## The rows of the engine (R33, R34, R38) -/

theorem exec_scrubStart {s : State} (hrst : s.rstLow = false) (hidle : s.scrub.phase = .idle)
    {f : Frame} {rest : List Frame} (hq : s.scrub.queue = f :: rest) : exec .scrubStart s = .next s.takeHead := by
  refine (whileRunning_high hrst _).trans (congrArg _ (if_pos ⟨hidle, ?_⟩))
  rw [hq]
  exact List.cons_ne_nil f rest

theorem exec_pieceEnd {s : State} (hrst : s.rstLow = false) (hphase : s.scrub.phase = .zeroing)
    (hheld : s.arbiter.array = .held .scrub) {f : Frame} {rest : List Frame} (hq : s.scrub.queue = f :: rest) :
    exec .pieceEnd s =
      .next ((s.setMem (Memory.writeBytes s.mem (pieceAddr f s.scrub.pieces) pieceZeros)).endGrant).afterPiece := by
  have hrow : exec .pieceEnd s = execPieceEnd s := rfl
  rw [hrow, execPieceEnd, whileRunning_high hrst]
  simp only [hq]
  rw [if_pos ⟨hphase, State.holds_iff.mpr hheld⟩]

theorem exec_scrubDone {s : State} (hrst : s.rstLow = false) (hphase : s.scrub.phase = .reporting)
    {f : Frame} {rest : List Frame} (hq : s.scrub.queue = f :: rest) :
    exec .scrubDone s = .next ((s.reportScrubbed f).setScrub { s.scrub with queue := rest }).takeHead := by
  have hrow : exec .scrubDone s = execScrubDone s := rfl
  rw [hrow, execScrubDone, whileRunning_high hrst]
  simp only [hq]
  rw [if_pos hphase]

/-- Settles O36: the start takes up the head; a granted piece writes its zeros, and the sixteenth is the last. -/
theorem scrubPiecesZeroFrame : Obligations.ScrubPiecesZeroFrame := by
  intro s f rest hrst hq first last
  refine ⟨fun hidle hmark => ?_, fun hidle hmark => ?_, fun hphase hheld hpieces hm =>
    ⟨_, Memory.read_piece hm hpieces, ?_⟩⟩
  · rw [exec_scrubStart hrst hidle hq, State.takeHead_held hq hmark]
  · rw [exec_scrubStart hrst hidle hq, State.takeHead_zeroing hq hmark]
  · rw [exec_pieceEnd hrst hphase hheld hq]
    generalize Memory.writeBytes s.mem (pieceAddr f s.scrub.pieces) pieceZeros = m
    by_cases hlast : last
    · have hsixteen : 16 = s.scrub.pieces + 1 := by rw [show s.scrub.pieces = 15 from hlast]
      have hafter : ¬((s.setMem m).endGrant).scrub.pieces + 1 < 16 := by
        rw [show ((s.setMem m).endGrant).scrub = s.scrub from rfl]
        omega
      rw [State.afterPiece, if_neg hafter, if_pos hlast, if_pos hlast, hsixteen]
      rfl
    · have hnext : ((s.setMem m).endGrant).scrub.pieces + 1 < 16 := by
        rw [show ((s.setMem m).endGrant).scrub = s.scrub from rfl]
        omega
      rw [State.afterPiece, if_pos hnext, if_neg hlast, if_neg hlast, ← hphase]
      rfl

/-- The head that follows a frame whose scrub is done is taken up with the marks as they were. -/
theorem State.mark_setFrame {s : State} {f : Frame} {r : FrameRecord} (hr : r.mark = (s.frame f).mark) (g : Frame) :
    ((s.setFrame f r).frame g).mark = (s.frame g).mark := by
  rw [State.setFrame_frame]
  split
  · rename_i h
    rw [h, hr]
  · rfl

/-- Settles O37: the reservation decides the frame's record and the event, the rest of the queue what the engine does
next. -/
theorem scrubDoneFreesOrGrants : Obligations.ScrubDoneFreesOrGrants := by
  intro s f rest hrst hq hphase r cleared after
  have next (t : State) (hscrub : t.scrub = s.scrub) (harb : t.arbiter = s.arbiter)
      (hmark : ∀ g, (t.frame g).mark = (s.frame g).mark) :
      (t.setScrub { s.scrub with queue := rest }).takeHead = after t := by
    cases rest with
    | nil => exact State.takeHead_nil rfl
    | cons g tail =>
      cases hg : (s.frame g).mark with
      | true =>
        rw [State.takeHead_held (s := t.setScrub { s.scrub with queue := g :: tail }) rfl ((hmark g).trans hg)]
        exact (if_pos hg).symm
      | false =>
        rw [State.takeHead_zeroing (s := t.setScrub { s.scrub with queue := g :: tail }) rfl ((hmark g).trans hg)]
        refine Eq.trans ?_ (if_neg (Bool.eq_false_iff.mp hg)).symm
        rw [← harb]
        rfl
  rw [exec_scrubDone hrst hphase hq]
  refine ⟨fun hnone => ?_, fun p hsome => ?_⟩
  · have hr : (s.frame f).reservation = none := hnone
    have hreport : s.reportScrubbed f = s.setFrame f cleared := by
      simp only [State.reportScrubbed, hr]
      rfl
    rw [hreport, next (s.setFrame f cleared) rfl rfl (State.mark_setFrame rfl)]
  · have hr : (s.frame f).reservation = some p := hsome
    have hreport : s.reportScrubbed f =
        (s.setFrame f { cleared with state := .owned, owner := some p, generation := r.generation + 1 }).withEvents
          .directory [(p, Event.claimGranted f (r.generation + 1))] := by
      simp only [State.reportScrubbed, hr, State.handOver_eq]
      rfl
    have hmark := State.mark_setFrame (s := s) (f := f) (r := { cleared with
      state := .owned, owner := some p, generation := r.generation + 1 }) rfl
    rw [hreport]
    refine congrArg _ (next _ ?_ ?_ hmark)
    · rfl
    · rfl

end Sys2Proof.Machine
end

section
/-! SUPPORT. The statements about whole rows of frames: a tick, EXPIRY, the directory's part in a closing, and the disposal
of a closed port's frames. -/

namespace Sys2Proof.Machine

/-! ## Rows of events -/

/-- A row of events in which the frames that fail a test have none. -/
theorem flatMap_filter_of_nil {α β : Type} {test : α → Bool} {f g : α → List β} {l : List α}
    (hnil : ∀ x ∈ l, test x = false → f x = []) (heq : ∀ x ∈ l, test x = true → f x = g x) :
    l.flatMap f = (l.filter test).flatMap g := by
  induction l with
  | nil => rfl
  | cons x l ih =>
    have hl := ih (fun y hy => hnil y (List.mem_cons_of_mem x hy)) fun y hy => heq y (List.mem_cons_of_mem x hy)
    rw [List.flatMap_cons, List.filter_cons]
    split
    · rw [List.flatMap_cons, heq x List.mem_cons_self ‹_›, hl]
    · rw [hnil x List.mem_cons_self (Bool.eq_false_iff.mpr ‹_›), hl]
      rfl

theorem OfferRow.eventsOf_of_kept (d : OfferRow) {f : Frame} {r : FrameRecord} (h : d.endsIn r = false) :
    d.eventsOf f r = [] := by
  unfold OfferRow.endsIn at h
  unfold OfferRow.eventsOf
  cases ho : r.offer with
  | none => rfl
  | some o =>
    have hkept : d.ends o = false := by simpa [ho] using h
    simp [Option.filter, hkept]

theorem OfferRow.eventsOf_of_ended (d : OfferRow) {f : Frame} {r : FrameRecord} (h : d.endsIn r = true) :
    d.eventsOf f r = r.offer.toList.flatMap (d.events f) := by
  unfold OfferRow.endsIn at h
  unfold OfferRow.eventsOf
  cases ho : r.offer with
  | none => rfl
  | some o =>
    have hended : d.ends o = true := by simpa [ho] using h
    simp [Option.filter, hended]

/-! ## A tick (R50 to R52) -/

theorem exec_tick {s : State} (hrst : s.rstLow = false) : exec .tick s = .next (s.setTickCount 0).takeTick := by
  unfold exec execTick
  rw [whileRunning_high hrst, s.awaitTick_refclk hrst]

/-- With a timeout the ticks remaining are not 0, so that an offer at 1 or below is at 1. -/
theorem Offer.Legal.tick_ends {f : Frame} {r : FrameRecord} {o : Offer} (h : o.Legal f r) :
    tickRow.ends o = (o.timeout != 0 && o.remaining == 1) := by
  obtain ⟨-, -, -, -, hpos⟩ := h
  have hone : o.remaining = 1 ↔ o.remaining.toNat = 1 := word_eq_one
  by_cases ht : o.timeout = 0
  · simp [tickRow, ht]
  · have hne : o.remaining.toNat ≠ 0 := fun h => hpos ht (BitVec.eq_of_toNat_eq h)
    have hiff : decide (o.remaining.toNat ≤ 1) = (o.remaining == 1) := by
      rw [Bool.eq_iff_iff, decide_eq_true_iff, beq_iff_eq, hone]
      omega
    simp only [tickRow, hiff]

/-- What a tick makes of a frame's record. -/
theorem tickRow_record {f : Frame} {r : FrameRecord} (h : r.Legal f) :
    tickRow.record r =
      match r.offer with
      | none => r
      | some o =>
        if o.timeout = 0 then r
        else if o.remaining = 1 then { r with state := .owned, offer := none }
        else { r with offer := some { o with remaining := o.remaining - 1 } } := by
  obtain ⟨-, -, hoffer, -⟩ := h
  unfold OfferRow.record
  cases ho : r.offer with
  | none => rfl
  | some o =>
    have hends := (hoffer o ho).tick_ends
    dsimp only
    by_cases ht : o.timeout = 0
    · have hkept : tickRow.kept o = o := if_pos ht
      rw [if_pos ht, if_neg (by rw [hends, ht]; nofun), hkept, ← ho]
    · have hne : (o.timeout != 0) = true := bne_iff_ne.mpr ht
      by_cases hone : o.remaining = 1
      · rw [if_neg ht, if_pos hone, if_pos (by rw [hends, hne, hone]; rfl)]
        rfl
      · have hkept : tickRow.kept o = { o with remaining := o.remaining - 1 } := if_neg ht
        have hnot : (o.remaining == 1) = false := beq_eq_false_iff_ne.mpr hone
        rw [if_neg ht, if_neg hone, if_neg (by rw [hends, hne, hnot]; nofun), hkept]

/-- EXPIRY ends the offer of its frame where it is found at 0. -/
theorem exec_expiry_ends {s : State} {f : Frame} {o : Offer} (hrst : s.rstLow = false) (ho : (s.frame f).offer = some o)
    (ht : o.timeout ≠ 0) (hr : o.remaining = 0) :
    exec (.expiry f) s = .next ((s.endOffer f).handOver .directory (expiryEvents o)) := by
  have hrow : exec (.expiry f) s = execExpiry f s := rfl
  rw [hrow, execExpiry, whileRunning_high hrst]
  simp only [ho]
  rw [if_pos ⟨ht, hr⟩]

theorem exec_expiry_keeps {s : State} {f : Frame} (hrst : s.rstLow = false)
    (h : ∀ o, (s.frame f).offer = some o → o.timeout = 0 ∨ o.remaining ≠ 0) : exec (.expiry f) s = .next s := by
  have hrow : exec (.expiry f) s = execExpiry f s := rfl
  rw [hrow, execExpiry, whileRunning_high hrst]
  cases ho : (s.frame f).offer with
  | none => rfl
  | some o =>
    have hnot : ¬(o.timeout ≠ 0 ∧ o.remaining = 0) := fun ⟨ht, hr⟩ => (h o ho).elim ht fun hne => hne hr
    simp only
    rw [if_neg hnot]

/-- Settles O38: a tick is a row of all the frames, which ends the offers at 1 and lowers the others. -/
theorem tickLowersAndExpires : Obligations.TickLowersAndExpires := by
  intro s hrst expires expiry
  refine ⟨fun hf hi => ?tick, fun f => ⟨fun o ho hframe ht hr => ?_, exec_expiry_keeps hrst⟩⟩
  case tick =>
    have hplaced : (s.setTickCount 0).OffersPlaced := State.OffersPlaced.of_legal hf hi
    have hends (f : Frame) : tickRow.endsIn (s.frame f) = expires f := by
      cases ho : (s.frame f).offer with
      | none => simp [OfferRow.endsIn, expires, ho]
      | some o => simpa [OfferRow.endsIn, expires, ho] using ((hf f).2.2.1 o ho).tick_ends
    obtain ⟨frames, inboxes, hrest⟩ := OfferRow.foldl_rest (d := tickRow) (s.setTickCount 0, []) allFrames
    have hframe := OfferRow.foldl_frame (d := tickRow) (s.setTickCount 0, []) allFrames_nodup
    have hinbox := OfferRow.foldl_inbox tickRow_keepsPlace (s.setTickCount 0, []) allFrames_nodup hplaced
    have hevents := OfferRow.foldl_events (d := tickRow) (s.setTickCount 0, []) allFrames_nodup
    rw [hrest] at hframe hinbox
    refine ⟨frames, inboxes, fun f => ?_, fun p => ?_, ?_⟩
    · refine (hframe f).trans ?_
      rw [if_pos (mem_allFrames f)]
      exact tickRow_record (hf f)
    · refine (hinbox p).trans (List.filter_congr fun f _ => ?_)
      rw [decide_eq_true (mem_allFrames f), Bool.true_and]
      exact congrArg _ (hends f)
    · rw [exec_tick hrst, State.takeTick, tickFrame_eq, hevents, hrest, State.handOver_eq, List.nil_append]
      refine congrArg (fun l => Host.Outcome.next (State.withEvents _ .directory l)) ?_
      refine flatMap_filter_of_nil (fun f _ hno => tickRow.eventsOf_of_kept ((hends f).trans hno)) fun f _ hyes => ?_
      refine (tickRow.eventsOf_of_ended ((hends f).trans hyes)).trans (List.flatMap_congr fun o ho => ?_)
      obtain ⟨hframe, -⟩ := (hf f).2.2.1 o (Option.mem_toList.mp ho)
      exact congrArg (fun g => [(o.offerer, Event.offerExpired o.recipient g),
        (o.recipient, Event.offerCancelled o.offerer g .expired)]) hframe
  · rw [exec_expiry_ends hrst ho ht hr, State.endOffer_some ho, State.handOver_eq, expiryEvents, hframe]

end Sys2Proof.Machine
end

section
/-! SUPPORT. The statements about the directory's part in a closing and about the disposal of a closed port's frames. -/

namespace Sys2Proof.Machine

/-! ## The directory's part in a closing (R26, R67 to R69) -/

/-- Without the offers, what the directory takes from a record is the closing port's grant, heirship and reservation. -/
theorem filter_ne_eq_ite (x : Option Port) (p : Port) : x.filter (fun q => q != p) = if x = some p then none else x := by
  cases x with
  | none => rfl
  | some q => by_cases h : q = p <;> simp [Option.filter, h]

theorem State.closeGrants_inboxesLegal {s : State} (hi : s.InboxesLegal) (p : Port) : (s.closeGrants p).InboxesLegal :=
  fun x => by
    have hx := hi x
    simp only [State.closeGrants_frame, State.isUrgent] at hx ⊢
    exact hx

/-- Settling the offers writes the frame records and the inboxes alone. -/
theorem State.settleOffers_rest (s : State) (p : Port) :
    ∃ frames inboxes, (s.settleOffers p).1 = { s with frames := frames, inboxes := inboxes } := by
  rw [State.settleOffers_eq]
  obtain ⟨v, w, hvw⟩ := OfferRow.foldl_rest (d := returnRow p) (s, []) (s.inbox p)
  obtain ⟨v', w', hvw'⟩ := OfferRow.foldl_rest (d := cancelRow p) ((s.inbox p).foldl (returnRow p).step (s, [])) allFrames
  exact ⟨v', w', by rw [hvw', hvw]⟩

theorem exec_directoryClosing {s : State} {p : Port} {rest : List DirMail} (hrst : s.rstLow = false)
    (hmail : s.dirMail = .closing p :: rest) :
    exec (.directoryClosing p) s = .next ((s.setDirMail rest).closeAtDirectory p) := by
  have hrow : exec (.directoryClosing p) s = execDirectoryClosing p s := rfl
  rw [hrow, execDirectoryClosing, whileRunning_high hrst]
  simp only [hmail, if_true]

/-- Settles O47: the grants of the port go, and then its offers are settled as `State.settleOffers` does. -/
theorem directoryClosingSettlesOffers : Obligations.DirectoryClosingSettlesOffers := by
  intro s p rest hrst hmail hf hi made ended
  have hi' : ((s.setDirMail rest).closeGrants p).InboxesLegal := State.closeGrants_inboxesLegal (s := s.setDirMail rest) hi p
  have hf' : ((s.setDirMail rest).closeGrants p).FramesLegal := State.closeGrants_framesLegal (s := s.setDirMail rest) hf p
  have hrecord (f : Frame) : ((s.setDirMail rest).closeGrants p).frame f = (s.frame f).withoutPort p :=
    (s.setDirMail rest).closeGrants_frame p f
  obtain ⟨frames, inboxes, hrest⟩ := ((s.setDirMail rest).closeGrants p).settleOffers_rest p
  have hframe := State.settleOffers_frame (p := p) hi'
  have hinbox := State.settleOffers_inbox (p := p) hi' hf'
  have hevents := State.settleOffers_events (p := p) hi' hf'
  simp only [hrecord] at hframe hinbox hevents
  rw [hrest] at hframe hinbox
  refine ⟨frames, inboxes, fun f => (hframe f).trans ?_, fun q => hinbox q, ?_⟩
  · have hended : (s.frame f).offer.any (Offer.names · p) = ended f := rfl
    rw [show ((s.frame f).withoutPort p).offer = (s.frame f).offer from rfl, hended, FrameRecord.withoutPort,
      filter_ne_eq_ite, filter_ne_eq_ite]
    cases ended f <;> rfl
  · rw [exec_directoryClosing hrst hmail, State.closeAtDirectory_eq, hrest, hevents, State.handOver_eq]
    rfl

/-! ## The disposal of a closed port's frames (R28) -/

theorem exec_disposal {s : State} {p : Port} {rest : List DirMail} (hrst : s.rstLow = false)
    (hmail : s.dirMail = .dispose p :: rest) (hdown : s.dirUp p = false) :
    exec (.disposal p) s = .next ((s.setDirMail rest).disposeAll p) := by
  have htaken : sel s.closingTaken p = true := by simpa [State.dirUp] using hdown
  have hrow : exec (.disposal p) s = execDisposal p s := rfl
  rw [hrow, execDisposal, whileRunning_high hrst]
  simp only [hmail, htaken, and_self, if_true]

@[simp] theorem State.withEvents_session (s : State) (source : Producer) (l : List (Port × EventRecord)) (p : Port) :
    (s.withEvents source l).session p = s.session p := by
  obtain ⟨v, hv⟩ := s.withEvents_rest source l
  rw [hv]
  rfl

theorem State.withEvents_setSession (s : State) (source : Producer) (l : List (Port × EventRecord)) (p : Port)
    (r : SessionRecord) : (s.withEvents source l).setSession p r = (s.setSession p r).withEvents source l := by
  unfold State.withEvents
  split <;> rfl

/-- The frames below one that name a port as heir, as one test on all the frames. -/
theorem State.namedIn_below (s : State) (p : Port) (f : Frame) (q : Port) :
    s.namedIn p (allFrames.filter fun g => decide (g < f)) q =
      (allFrames.filter fun g => decide (g < f) && s.ownsFrame p g && (s.frame g).fallback == some q).length := by
  rw [State.namedIn, List.filter_filter]
  refine congrArg List.length (List.filter_congr fun g _ => ?_)
  rw [Bool.and_comm, Bool.and_assoc]

/-- Settles O50: the row of the frames as `State.disposeFrames_spec` gives it. -/
theorem disposalPassesOrReleases : Obligations.DisposalPassesOrReleases := by
  intro s p rest hrst hmail hdown hf owns before heir freed revoked
  have hspec : DisposedSoFar (s.setDirMail rest) p allFrames ((s.setDirMail rest).disposeFrames p) :=
    State.disposeFrames_spec hf hdown
  have hheir (f : Frame) : (s.setDirMail rest).heirOf p f = heir f := by
    have hbefore (q : Port) : (s.setDirMail rest).namedIn p (allFrames.filter fun g => decide (g < f)) q = before f q :=
      State.namedIn_below _ p f q
    rw [State.heirOf, State.heirAfter]
    simp only [hbefore]
    rfl
  have hfreed : (s.setDirMail rest).freedFrame p = freed := by
    funext f
    rw [State.freedFrame, hheir]
    rfl
  obtain ⟨frames, queue, hrest⟩ := hspec.rest
  have hframe := hspec.frame
  have hqueue := hspec.queue
  rw [hrest] at hframe hqueue
  rw [hfreed] at hqueue
  refine ⟨frames, fun f => (hframe f).trans ?_, ?_⟩
  · rw [if_pos (mem_allFrames f), State.disposedFrame, hheir]
    rfl
  · have hevents : (s.setDirMail rest).disposalEvents p = fun f =>
        match heir f with
        | some q =>
          revoked f (some q) .ownerChanged ++
            [(q, Event.frameInherited p f ((s.frame f).generation + 1) (s.frame f).label)]
        | none => revoked f none .released := by
      funext f
      rw [State.disposalEvents, hheir]
      rfl
    rw [exec_disposal hrst hmail hdown, State.disposeAll_eq, hspec.events, hevents, hrest, State.handOver_eq,
      show queue = s.scrub.queue ++ allFrames.filter freed from hqueue, State.withEvents_session, State.withEvents_setSession]
    rfl

end Sys2Proof.Machine
end

section
/-! SUPPORT. The family of the Copy Engine: selection, the end of a fetch with its checks, and the beginning of a segment. -/

namespace Sys2Proof.Machine

/-! ## Selection (R111) -/

theorem State.nextRing_test {s : State} {p : Port} :
    ((s.ring p).state == .active && s.isUp p) = true ↔ (s.ring p).state = .active ∧ (s.session p).state = .up := by
  rw [Bool.and_eq_true, beq_iff_eq, State.isUp_iff]

/-- Settles O39: the ring selected is the first that passes the test in the cyclic order after the pointer. -/
theorem selectionTakesNextRing : Obligations.SelectionTakesNextRing := by
  intro s hrst hfree eligible
  have hrow : exec .selection s = execSelection s := rfl
  rw [hrow, execSelection, whileRunning_high hrst, if_pos hfree]
  refine ⟨fun hnone => ?_, fun p c hp hc hmin => ?_⟩
  · have hnext : s.nextRing = none :=
      List.find?_eq_none.mpr fun p _ htest => hnone p (State.nextRing_test.mp htest)
    simp only [hnext]
  · have hnext : s.nextRing = some p := find_portsAfter (State.nextRing_test.mpr hp) fun q hq =>
      hmin q (State.nextRing_test.mp hq)
    simp only [hnext, hc]
    rfl

/-! ## The rights of a job (R25, R113, R115) -/

section

variable {s : State} {j : Job}

theorem State.rightsTest_noSourceRight (hr : ¬s.ReadRight j.place.port j.source) :
    s.rightsTest j = some .noSourceRight := by
  unfold State.rightsTest
  exact if_pos (by rw [decide_eq_false hr]; rfl)

theorem State.rightsTest_noDestRight (hr : s.ReadRight j.place.port j.source) (hw : ¬s.WriteRight j.place.port j.dest) :
    s.rightsTest j = some .noDestRight := by
  unfold State.rightsTest
  rw [if_neg (by rw [decide_eq_true hr]; nofun)]
  exact if_pos (by rw [decide_eq_false hw]; rfl)

/-- The test of the generations is that of a job with CHECKGEN. -/
theorem State.generationsHold_iff :
    (checkGenBit j.control &&
      !(j.sourceGen == (s.frame j.source).generation && j.destGen == (s.frame j.dest).generation)) = true ↔
      ¬s.GenerationsHold j := by
  simp [State.GenerationsHold, checkGenBit]
  exact fun _ => not_and_or.symm.trans not_and

theorem State.rightsTest_stale (hr : s.ReadRight j.place.port j.source) (hw : s.WriteRight j.place.port j.dest)
    (hg : ¬s.GenerationsHold j) : s.rightsTest j = some .stale := by
  unfold State.rightsTest
  rw [if_neg (by rw [decide_eq_true hr]; nofun), if_neg (by rw [decide_eq_true hw]; nofun)]
  exact if_pos (State.generationsHold_iff.mpr hg)

theorem State.rightsTest_none (hr : s.ReadRight j.place.port j.source) (hw : s.WriteRight j.place.port j.dest)
    (hg : s.GenerationsHold j) : s.rightsTest j = none := by
  unfold State.rightsTest
  rw [if_neg (by rw [decide_eq_true hr]; nofun), if_neg (by rw [decide_eq_true hw]; nofun)]
  exact if_neg fun h => State.generationsHold_iff.mp h hg

end

/-! ## The end of a fetch (R112, R113, R124) -/

/-- The job of a port whose report is not owed is gone without one. -/
theorem State.withoutJob_unowed {s : State} {p : Port} (h : sel s.copy.owed p = false) :
    s.withoutJob p = s.setEngine .free := by
  have hp : put s.copy.owed p false = s.copy.owed := by rw [← h, put_sel]
  simp [State.withoutJob, State.setEngine, h, hp]

theorem frameByte_of_val {b : Byte} {f : Frame} (h : b.toNat = f.val) : frameByte b = some f := by
  have hlt : b.toNat < 64 := h ▸ f.isLt
  rw [frameByte, dif_pos hlt]
  exact congrArg some (Fin.ext h)

theorem frameByte_out {b : Byte} (h : 64 ≤ b.toNat) : frameByte b = none := dif_neg (not_lt.mpr h)

/-- Checks 1 to 3 of R113. -/
def Descriptor.Bad (d : Descriptor) : Prop :=
  d.length.toNat = 0 ∨ 4096 < d.length.toNat ∨ 64 ≤ d.sourceFrame.toNat ∨ 64 ≤ d.destFrame.toNat ∨
    4096 < d.sourceOffset.toNat + d.length.toNat ∨ 4096 < d.destOffset.toNat + d.length.toNat

theorem Descriptor.toJob_bad {d : Descriptor} (j : JobPlace) (h : d.Bad) : d.toJob j = none := by
  unfold Descriptor.toJob
  split
  case isFalse => rfl
  case isTrue hlen =>
    split
    case h_2 => rfl
    case h_1 source dest hsource hdest =>
      refine if_neg fun ⟨hs, hd⟩ => ?_
      simp only [Config.frameBytes] at hlen hs hd
      rcases h with h | h | h | h | h | h
      · omega
      · omega
      · rw [frameByte_out h] at hsource
        cases hsource
      · rw [frameByte_out h] at hdest
        cases hdest
      · omega
      · omega

theorem Descriptor.toJob_good {d : Descriptor} (j : JobPlace) (h : ¬d.Bad) {source dest : Frame}
    (hs : d.sourceFrame.toNat = source.val) (hd : d.destFrame.toNat = dest.val) :
    d.toJob j = some
      { place := j, control := d.control, source := source, sourceOffset := d.sourceOffset.toNat
        sourceGen := d.sourceGen, dest := dest, destOffset := d.destOffset.toNat, destGen := d.destGen
        length := d.length.toNat, done := 0, sum := 0 } := by
  simp only [Descriptor.Bad, not_or, not_lt] at h
  obtain ⟨hzero, hlen, -, -, hsource, hdest⟩ := h
  have hlength : 1 ≤ d.length.toNat ∧ d.length.toNat ≤ Config.frameBytes := ⟨Nat.pos_of_ne_zero hzero, hlen⟩
  simp only [Descriptor.toJob, if_pos hlength, frameByte_of_val hs, frameByte_of_val hd]
  exact if_pos ⟨hsource, hdest⟩

section

variable {s : State} {j : JobPlace} {d : Descriptor}

theorem State.validate_bad (h : d.toJob j = none) :
    s.validate j d = s.request (.writing (failedJob j d.control .badDescriptor)) := by
  simp only [State.validate, h]

theorem State.validate_failing {job : Job} {status : DescStatus} (h : d.toJob j = some job)
    (hr : s.rightsTest job = some status) : s.validate j d = s.request (.writing (failedJob j d.control status)) := by
  simp only [State.validate, h, hr]

theorem State.validate_passing {job : Job} (h : d.toJob j = some job) (hr : s.rightsTest job = none) :
    s.validate j d = s.request (.waiting job) := by
  simp only [State.validate, h, hr]

end

/-- The end of a fetch in progress, by the descriptor read. -/
theorem exec_fetchEnd {s : State} {j : JobPlace} (hrst : s.rstLow = false) (hheld : s.arbiter.array = .held .copy)
    (he : s.copy.engine = .fetching j) :
    exec .fetchEnd s =
      .next (if sel s.copy.owed j.port then (s.finishJob j.port).endGrant
        else if ownBit (readDescriptor s.mem j.addr).control then
          ((s.setRing j.port { s.ring j.port with kickNoted := false }).endGrant).validate j (readDescriptor s.mem j.addr)
        else ((s.setRing j.port (s.ring j.port).afterEmptyFetch).endGrant).finishJob j.port) := by
  have hrow : exec .fetchEnd s = execFetchEnd s := rfl
  rw [hrow, execFetchEnd, whileRunning_high hrst]
  simp only [he, State.holds_iff.mpr hheld, if_true]

/-- Settles O40: OWN decides between the ring's state and a job, and the checks in their order what becomes of the job. -/
theorem fetchEndValidates : Obligations.FetchEndValidates := by
  intro s j hrst hheld he byte word ended g becomes requests fails length bad
  have hrow := exec_fetchEnd hrst hheld he
  have haddr : j.addr = j.ringFrame.val * 4096 + j.offset := rfl
  have hbyte (n : Nat) : Memory.read s.mem (j.addr + n) = byte n := by rw [haddr]
  have hword (n : Nat) : Memory.readWord s.mem (j.addr + n) = word n := by rw [Memory.readWord, haddr, Nat.add_assoc]
  have hread : readDescriptor s.mem j.addr =
      { control := word 0, length := word 2, sourceFrame := byte 4, sourceGen := byte 5, sourceOffset := word 6
        destFrame := byte 8, destGen := byte 9, destOffset := word 10 } := by
    have hfirst := hword 0
    rw [Nat.add_zero] at hfirst
    simp only [readDescriptor, hbyte, hword, hfirst]
  rw [hread] at hrow
  generalize hd : Descriptor.mk (word 0) (word 2) (byte 4) (byte 5) (word 6) (byte 8) (byte 9) (word 10) = d at hrow
  have hcontrol : d.control = word 0 := by rw [← hd]
  have empty (state : RingState) (howed : sel s.copy.owed j.port = false) (hown : (word 0).getLsbD 0 = false)
      (hring : g.afterEmptyFetch = { g with state := state, kickNoted := false }) :
      exec .fetchEnd s = .next (becomes state .free ended) := by
    rw [hrow, howed, if_neg nofun, if_neg (by rw [ownBit, hcontrol, hown]; nofun), State.finishJob_eq,
      State.withoutJob_unowed (s := (s.setRing j.port _).endGrant) howed, hring]
    rfl
  have formed (howed : sel s.copy.owed j.port = false) (hown : (word 0).getLsbD 0 = true) :
      exec .fetchEnd s = .next (((s.setRing j.port { g with kickNoted := false }).endGrant).validate j d) := by
    rw [hrow, howed, if_neg nofun, if_pos (by rw [ownBit, hcontrol, hown])]
  have hbad : d.Bad ↔ bad := by rw [← hd, Descriptor.Bad]
  refine ⟨fun howed => ?owed, fun howed hown hg => empty _ howed hown ?active,
    fun howed hown hg => empty _ howed hown ?stopping, fun howed hown hb => ?bad, ?good⟩
  case owed =>
    rw [hrow, if_pos howed, State.finishJob_eq]
    rfl
  case active =>
    rw [Ring.afterEmptyFetch, hg]
  case stopping =>
    rw [Ring.afterEmptyFetch, hg]
  case bad =>
    rw [formed howed hown, State.validate_bad (s := (s.setRing j.port { g with kickNoted := false }).endGrant) (Descriptor.toJob_bad j (hbad.mpr hb)), hcontrol]
    rfl
  case good =>
    intro source dest howed hown hb hsource hdest job reads writes
    have hjob : d.toJob j = some job := by
      rw [Descriptor.toJob_good (source := source) (dest := dest) j (mt hbad.mp hb) (by rw [← hd]; exact hsource)
        (by rw [← hd]; exact hdest), ← hd]
    have failing {status : DescStatus} (h : s.rightsTest job = some status) :
        exec .fetchEnd s = .next (fails status) := by
      rw [formed howed hown, State.validate_failing (s := (s.setRing j.port { g with kickNoted := false }).endGrant) hjob h, hcontrol]
      rfl
    refine ⟨fun hr => failing (State.rightsTest_noSourceRight hr),
      fun hr hw => failing (State.rightsTest_noDestRight hr hw),
      fun hr hw hg => failing (State.rightsTest_stale hr hw hg), fun hr hw hg => ?_⟩
    rw [formed howed hown, State.validate_passing (s := (s.setRing j.port { g with kickNoted := false }).endGrant) hjob
      (State.rightsTest_none (s := s) hr hw hg)]
    rfl

/-! ## The beginning of a segment (R115, R124) -/

section

variable {s : State} {j : Job} (hrst : s.rstLow = false) (hheld : s.arbiter.array = .held .copy)
  (he : s.copy.engine = .waiting j)
include hrst hheld he

/-- The granted segment of a port that is not UP: its job is abandoned. -/
theorem exec_segmentBegin_abandons (hup : s.isUp j.place.port = false) :
    exec .segmentBegin s = .next ((s.finishJob j.place.port).endGrant) := by
  have hrow : exec .segmentBegin s = execSegmentBegin s := rfl
  rw [hrow, execSegmentBegin, whileRunning_high hrst]
  simp only [he, State.holds_iff.mpr hheld, hup, if_true, Bool.not_false]

theorem exec_segmentBegin_fails (hup : s.isUp j.place.port = true) {status : DescStatus}
    (h : s.rightsTest j = some status) :
    exec .segmentBegin s =
      .next (s.endGrant.request (.writing ⟨j.place, j.control, j.lossStatus status, j.done, j.sum⟩)) := by
  have hrow : exec .segmentBegin s = execSegmentBegin s := rfl
  rw [hrow, execSegmentBegin, whileRunning_high hrst]
  simp only [he, State.holds_iff.mpr hheld, hup, h, if_true, Bool.not_true, Bool.false_eq_true, if_false]

theorem exec_segmentBegin_begins (hup : s.isUp j.place.port = true) (h : s.rightsTest j = none) :
    exec .segmentBegin s = .next ((s.setMarks j true).setEngine (.transferring j)) := by
  have hrow : exec .segmentBegin s = execSegmentBegin s := rfl
  rw [hrow, execSegmentBegin, whileRunning_high hrst]
  simp only [he, State.holds_iff.mpr hheld, hup, h, if_true, Bool.not_true, Bool.false_eq_true, if_false]

end

/-- Settles O41: the port's session, then the tests of its rights in their order. -/
theorem segmentBeginTestsRights : Obligations.SegmentBeginTestsRights := by
  intro s j hrst hheld he p ended up reads writes fails
  have failing {status : DescStatus} (hup : up) (h : s.rightsTest j = some status) :
      exec .segmentBegin s = .next (fails status) :=
    exec_segmentBegin_fails hrst hheld he (State.isUp_iff.mpr hup) h
  refine ⟨fun hup => ?down, fun hup hr => failing hup (State.rightsTest_noSourceRight hr),
    fun hup hr hw => failing hup (State.rightsTest_noDestRight hr hw),
    fun hup hr hw hg => failing hup (State.rightsTest_stale hr hw hg),
    fun hup hr hw hg => ⟨(s.setMarks j true).frames, fun f => ?marks, ?begins⟩⟩
  case down =>
    rw [exec_segmentBegin_abandons hrst hheld he (State.isUp_false_iff.mpr hup), State.finishJob_eq]
    rfl
  case marks =>
    refine (s.setMarks_frame j true f).trans ?_
    by_cases h : f = j.source ∨ f = j.dest
    · rw [if_pos h]
      rcases h with h | h <;> simp [h]
    · obtain ⟨hs, hd⟩ := not_or.mp h
      rw [if_neg h, beq_eq_false_iff_ne.mpr hs, beq_eq_false_iff_ne.mpr hd, Bool.or_false, Bool.or_false]
  case begins =>
    exact exec_segmentBegin_begins hrst hheld he (State.isUp_iff.mpr hup) (State.rightsTest_none hr hw hg)

end Sys2Proof.Machine
end

section
/-! SUPPORT. The family of the Copy Engine, continued: the end of a segment, the end of a write-back, and the announcement of
a closing. -/

namespace Sys2Proof.Machine

/-! ## The sum of a segment's words (R119) -/

/-- A word's value by its two bytes. -/
theorem setWidth_append_toNat (lo hi : Byte) :
    BitVec.setWidth 32 (hi ++ lo) = BitVec.ofNat 32 (lo.toNat * 1 + hi.toNat * 256) := by
  have hlo := lo.isLt
  have hhi := hi.isLt
  apply BitVec.eq_of_toNat_eq
  rw [BitVec.toNat_setWidth, BitVec.toNat_append, BitVec.toNat_ofNat, ← Nat.shiftLeft_add_eq_or_of_lt hlo,
    Nat.shiftLeft_eq]
  omega

/-- The sum of the words of a run of bytes, byte by byte: a byte at an even place counts once, one at an odd place 256
times. -/
theorem wordSum_readBytes (m : Memory) (a n : Nat) :
    wordSum (Memory.readBytes m a n) =
      BitVec.ofNat 32 ((List.range n).map fun i => (Memory.read m (a + i)).toNat * if i % 2 = 0 then 1 else 256).sum := by
  induction n using Nat.twoStepInduction generalizing a with
  | zero => rfl
  | one =>
    have hb := (Memory.read m a).isLt
    apply BitVec.eq_of_toNat_eq
    simp [Memory.readBytes, wordSum]
  | more n ih _ =>
    have hrest : ((List.range n).map fun i =>
        (Memory.read m (a + (i + 1 + 1))).toNat * if (i + 1 + 1) % 2 = 0 then 1 else 256) =
          (List.range n).map fun i => (Memory.read m (a + 1 + 1 + i)).toNat * if i % 2 = 0 then 1 else 256 := by
      refine List.map_congr_left fun i _ => ?_
      rw [show a + (i + 1 + 1) = a + 1 + 1 + i by omega, show (i + 1 + 1) % 2 = i % 2 by omega]
    rw [Memory.readBytes, Memory.readBytes, wordSum, ih, setWidth_append_toNat, List.range_succ_eq_map,
      List.range_succ_eq_map]
    simp only [List.map_cons, List.map_map, List.sum_cons, Function.comp_def, Nat.succ_eq_add_one, hrest, Nat.add_zero,
      Nat.zero_mod, if_true, Nat.zero_add, Nat.one_mod, one_ne_zero, if_false]
    rw [← BitVec.ofNat_add, Nat.add_assoc]

/-! ## The end of a segment (R116, R119, R124) -/

/-- A held head whose mark has been cleared begins its scrub; nothing else is woken. -/
theorem State.wakeHeld_eq {s : State}
    (h : s.scrub.phase = .held → ∃ f rest, s.scrub.queue = f :: rest ∧ (s.frame f).mark = false) :
    s.wakeHeld = { s with
      scrub := if s.scrub.phase = .held then { s.scrub with phase := .zeroing, pieces := 0 } else s.scrub
      arbiter := { s.arbiter with
        presented := s.arbiter.presented ++ if s.scrub.phase = .held then [.scrub] else [] } } := by
  unfold State.wakeHeld
  split
  · obtain ⟨f, rest, hq, hmark⟩ := h ‹_›
    rw [State.takeHead_zeroing hq hmark]
  · rw [List.append_nil]

theorem exec_segmentEnd {s : State} {j : Job} (hrst : s.rstLow = false) (hheld : s.arbiter.array = .held .copy)
    (he : s.copy.engine = .transferring j) :
    exec .segmentEnd s =
      .next ((((s.setMem (Memory.copyBytes s.mem j.sourceAddr j.destAddr j.segmentLength)).setMarks j false).endGrant).afterSegment
        (j.advance (Memory.readBytes (Memory.copyBytes s.mem j.sourceAddr j.destAddr j.segmentLength) j.destAddr
          j.segmentLength))).wakeHeld := by
  have hrow : exec .segmentEnd s = execSegmentEnd s := rfl
  rw [hrow, execSegmentEnd, whileRunning_high hrst]
  simp only [he, State.holds_iff.mpr hheld, if_true]

theorem State.afterSegment_owed {s : State} {j : Job} (h : sel s.copy.owed j.place.port = true) :
    s.afterSegment j = s.withoutJob j.place.port := by
  rw [State.afterSegment, if_pos h, State.finishJob_eq]

theorem State.afterSegment_more {s : State} {j : Job} (h : ¬sel s.copy.owed j.place.port = true) (hmore : j.done < j.length) :
    s.afterSegment j = s.request (.waiting j) := by
  rw [State.afterSegment, if_neg h, if_pos hmore]

theorem State.afterSegment_last {s : State} {j : Job} (h : ¬sel s.copy.owed j.place.port = true) (hlast : j.length ≤ j.done) :
    s.afterSegment j = s.request (.writing ⟨j.place, j.control, .ok, j.done, j.sum⟩) := by
  rw [State.afterSegment, if_neg h, if_neg (not_lt.mpr hlast)]

/-- The head of a held scrub is a frame of the segment in flight, so that its mark is off once the segment has ended. -/
theorem State.ScrubLegal.held_unmarked {s : State} {j : Job} (hscrub : s.ScrubLegal) (hmarks : s.MarksLegal)
    (hrst : s.rstLow = false) (he : s.copy.engine = .transferring j) (hphase : s.scrub.phase = .held) (m : Memory) :
    ∃ f rest, s.scrub.queue = f :: rest ∧ (((s.setMem m).setMarks j false).frame f).mark = false := by
  obtain ⟨-, -, hsome, -, -, -, hhead⟩ := hscrub
  have hqueue : s.scrub.queue ≠ [] := hsome.resolve_left (by rw [hphase]; nofun)
  obtain ⟨f, rest, hq⟩ := List.exists_cons_of_ne_nil hqueue
  have hmark := (hhead f (by rw [hq]; rfl)).1 hphase hrst
  rw [hmarks f, he] at hmark
  have hof : f = j.source ∨ f = j.dest := by simpa using hmark
  exact ⟨f, rest, hq, by rw [State.setMarks_frame, if_pos hof]⟩

/-- Settles O42: the bytes are those of `Memory.copyBytes`, the sum is `wordSum_readBytes`, and what follows is by the
report that is owed and by the bytes that are left. -/
theorem segmentEndMovesBytes : Obligations.SegmentEndMovesBytes := by
  intro s j hrst hheld he hlegal hm hscrub hmarks n source dest owed held
  obtain ⟨-, hsourceIn, hdestIn, hdone, -⟩ := hlegal
  have hn : j.segmentLength = n := rfl
  have hsource : j.sourceAddr = source := by
    simp only [Job.sourceAddr, arrayAddr, Config.frameBytes, source]
    omega
  have hdest : j.destAddr = dest := by
    simp only [Job.destAddr, arrayAddr, Config.frameBytes, dest]
    omega
  have hin : dest + n ≤ Config.arrayBytes := by
    have hframe := j.dest.isLt
    simp only [dest, n, Config.arrayBytes]
    omega
  have hrow := exec_segmentEnd hrst hheld he
  have hread (i : Nat) (hi : i < n) := Memory.read_copyBytes (x := source) hm hin hi
  have hother (x : Nat) (hx : x < dest ∨ dest + n ≤ x) := Memory.copyBytes_other (x := source) hm hx
  rw [hsource, hdest, hn] at hrow
  generalize Memory.copyBytes s.mem source dest n = m at hrow hread hother
  have hwake := hscrub.held_unmarked hmarks hrst he (m := m)
  have hadvance : j.advance (Memory.readBytes m dest n) = { j with
      done := j.done + n
      sum := j.sum + BitVec.ofNat 32 (((List.range n).map fun i =>
        (Memory.read m (dest + i)).toNat * if i % 2 = 0 then 1 else 256).sum) } := by
    rw [Job.advance, Memory.readBytes_length, wordSum_readBytes]
  rw [hadvance] at hrow
  refine ⟨m, ((s.setMem m).setMarks j false).frames, hread, hother, fun f => ?marks, ?_⟩
  case marks =>
    refine ((s.setMem m).setMarks_frame j false f).trans ?_
    by_cases h : f = j.source ∨ f = j.dest
    · rw [if_pos h]
      rcases h with h | h <;> simp [h]
    · obtain ⟨hs, hd⟩ := not_or.mp h
      rw [if_neg h, bne_iff_ne.mpr hs, bne_iff_ne.mpr hd, Bool.and_true, Bool.and_true]
      rfl
  intro moved sum after requests
  refine ⟨fun howed => ?owed, fun howed hmore => ?more, fun howed hlast => ?last⟩
  case owed =>
    rw [hrow, State.afterSegment_owed, State.wakeHeld_eq hwake]
    · simp only [after, List.append_nil]
      rfl
    · exact howed
  case more =>
    rw [hrow, State.afterSegment_more, State.wakeHeld_eq hwake]
    · rfl
    · exact howed
    · exact hmore
  case last =>
    have hlen : j.done + n = j.length := by
      simp only [n] at hlast ⊢
      omega
    rw [hrow, State.afterSegment_last, State.wakeHeld_eq hwake, hlen]
    · rfl
    · exact howed
    · exact hlast

/-! ## The end of a write-back (R119, R121, R203) -/

/-- A byte of a run of bytes that has been written. -/
theorem Memory.read_writeBytes_at {m : Memory} {a : Nat} {bs : List Byte} (h : m.wf = true)
    (hin : a + bs.length ≤ Config.arrayBytes) {i : Nat} (hi : i < bs.length) :
    Memory.read (Memory.writeBytes m a bs) (a + i) = bs[i] := by
  rw [Memory.read_writeBytes h hin, dif_pos ⟨by omega, by omega⟩]
  simp only [Nat.add_sub_cancel_left]

section

variable {w : WriteBack} {m : Memory}

theorem WriteBack.place_addr_lt (hin : w.place.offset + 32 ≤ 4096) : w.place.addr + 32 ≤ Config.arrayBytes := by
  have hframe := w.place.ringFrame.isLt
  simp only [JobPlace.addr, arrayAddr, Config.frameBytes, Config.arrayBytes]
  omega

theorem WriteBack.controlBytes_length (w : WriteBack) : w.controlBytes.length = 2 := rfl

theorem WriteBack.resultBytes_length (w : WriteBack) : w.resultBytes.length = 8 := rfl

/-- Of the descriptor's bytes, the write-back leaves those between its two runs and those after them. -/
theorem WriteBack.applyTo_other (hm : m.wf = true) {x : Nat}
    (hx : x < w.place.addr ∨ w.place.addr + 2 ≤ x ∧ x < w.place.addr + 12 ∨ w.place.addr + 20 ≤ x) :
    Memory.read (w.applyTo m) x = m.read x := by
  have hresult := w.resultBytes_length
  have hcontrol := w.controlBytes_length
  rw [WriteBack.applyTo, Memory.writeBytes_other (Memory.writeBytes_wf hm) (by omega),
    Memory.writeBytes_other hm (by omega)]

theorem WriteBack.applyTo_control (hin : w.place.offset + 32 ≤ 4096) (hm : m.wf = true) {i : Nat}
    (hi : i < w.controlBytes.length) : Memory.read (w.applyTo m) (w.place.addr + i) = w.controlBytes[i] := by
  have hlt := WriteBack.place_addr_lt hin
  have hcontrol := w.controlBytes_length
  rw [WriteBack.applyTo, Memory.writeBytes_other (Memory.writeBytes_wf hm) (by omega),
    Memory.read_writeBytes_at hm (by omega) hi]

theorem WriteBack.applyTo_result (hin : w.place.offset + 32 ≤ 4096) (hm : m.wf = true) {i : Nat}
    (hi : i < w.resultBytes.length) : Memory.read (w.applyTo m) (w.place.addr + 12 + i) = w.resultBytes[i] := by
  have hlt := WriteBack.place_addr_lt hin
  have hresult := w.resultBytes_length
  rw [WriteBack.applyTo, Memory.read_writeBytes_at (Memory.writeBytes_wf hm) (by omega) hi]

end

/-- A double word is its four bytes. -/
theorem bytes_append (x : BitVec 32) :
    x.extractLsb' 24 8 ++ x.extractLsb' 16 8 ++ x.extractLsb' 8 8 ++ x.extractLsb' 0 8 = x := by
  rw [BitVec.extractLsb'_append_extractLsb'_eq_extractLsb' (start₂ := 24) (start₁ := 16) rfl,
    BitVec.extractLsb'_append_extractLsb'_eq_extractLsb' (start₂ := 16) (start₁ := 8) rfl,
    BitVec.extractLsb'_append_extractLsb'_eq_extractLsb' (start₂ := 8) (start₁ := 0) rfl]
  exact BitVec.extractLsb'_eq_self

theorem exec_writeBackEnd {s : State} {w : WriteBack} (hrst : s.rstLow = false) (hheld : s.arbiter.array = .held .copy)
    (he : s.copy.engine = .writing w) :
    exec .writeBackEnd s =
      .next ((((s.setMem (w.applyTo s.mem)).setRing w.place.port ((s.ring w.place.port).afterWriteBack w.status)).handOver
        .copyEngine w.events).finishJob w.place.port).endGrant := by
  have hrow : exec .writeBackEnd s = execWriteBackEnd s := rfl
  rw [hrow, execWriteBackEnd, whileRunning_high hrst]
  simp only [he, State.holds_iff.mpr hheld, if_true]

/-- The end of a job leaves the arbiter, and the events handed over before it, as they are. -/
theorem State.withEvents_withoutJob_endGrant (s : State) (source : Producer) (l : List (Port × EventRecord)) (p : Port) :
    ((s.withEvents source l).withoutJob p).endGrant = (s.endGrant.withEvents source l).withoutJob p := by
  unfold State.withEvents
  split <;> rfl

/-- Settles O43: the ten bytes are the two runs of `WriteBack.applyTo`, the ring is `Ring.afterWriteBack`. -/
theorem writeBackEndWritesDescriptor : Obligations.WriteBackEndWritesDescriptor := by
  intro s w hrst hheld he hin hm p a g written events
  have hrow := exec_writeBackEnd hrst hheld he
  have other (x : Nat) (hx : x < a ∨ a + 2 ≤ x ∧ x < a + 12 ∨ a + 20 ≤ x) :
      Memory.read (w.applyTo s.mem) x = s.mem.read x := WriteBack.applyTo_other hm hx
  have control (i : Nat) (hi : i < 2) : Memory.read (w.applyTo s.mem) (a + i) = w.controlBytes[i]'hi :=
    WriteBack.applyTo_control hin hm hi
  have result (i : Nat) (hi : i < 8) : Memory.read (w.applyTo s.mem) (a + 12 + i) = w.resultBytes[i]'hi :=
    WriteBack.applyTo_result hin hm hi
  generalize w.applyTo s.mem = m at *
  clear_value a
  refine ⟨m, other, ?control, result 0 (by decide), result 1 (by decide), ?done, ?sum, ?row⟩
  case control =>
    have hlow : Memory.read m a = w.controlBytes[0]'Nat.two_pos := control 0 (by decide)
    rw [control 1 (by decide), hlow]
    exact BitVec.extractLsb'_append_extractLsb'
  case done =>
    have two : Memory.read m (a + 14) = _ := result 2 (by decide)
    have three : Memory.read m (a + 15) = _ := result 3 (by decide)
    rw [three, two]
    exact BitVec.extractLsb'_append_extractLsb'
  case sum =>
    have four : Memory.read m (a + 16) = _ := result 4 (by decide)
    have five : Memory.read m (a + 17) = _ := result 5 (by decide)
    have six : Memory.read m (a + 18) = _ := result 6 (by decide)
    have seven : Memory.read m (a + 19) = _ := result 7 (by decide)
    rw [seven, six, five, four]
    exact bytes_append _
  case row =>
    have hring : g.afterWriteBack w.status = written := rfl
    have hevents : w.events = events := by
      rw [WriteBack.events, ← ite_not]
      rfl
    rw [hrow, State.finishJob_eq, State.handOver_eq, hevents, State.withEvents_withoutJob_endGrant,
      show (s.ring w.place.port).afterWriteBack w.status = written from hring]
    rfl

end Sys2Proof.Machine
end

section
/-! SUPPORT. A closing at the Copy Engine: which of its three ends `State.closeJob` takes, by the engine's state. -/

namespace Sys2Proof.Machine

/-! ## A closing at the Copy Engine (R124, R125) -/

theorem exec_copyEngineClosing {s : State} {p : Port} (hrst : s.rstLow = false)
    (hann : (s.session p).annCopy = true) :
    exec (.copyEngineClosing p) s = .next ((s.ringClosed p).closeJob p) := by
  have hrow : exec (.copyEngineClosing p) s = execCopyEngineClosing p s := rfl
  rw [hrow, execCopyEngineClosing, whileRunning_high hrst, if_pos hann]
  rfl

/-- The state in which a port's job is gone, its report made and its claim's end left to the arbiter given. -/
def State.jobAbandoned (s : State) (p : Port) (b : Arbiter) : State := { s with
  sessions := put s.sessions p { s.session p with jobGone := true }
  copy := { s.copy with engine := .free, owed := put s.copy.owed p false }
  arbiter := b }

/-- The end of a job whose report is owed is its report. -/
theorem State.finishJob_owed_eq (s : State) (p : Port) (b : Arbiter) :
    ((s.setArbiter b).setOwed p true).finishJob p = s.jobAbandoned p b := by
  rw [State.finishJob_eq]
  simp only [State.withoutJob, State.setOwed, State.setArbiter, sel_put_same, put_put, if_true, State.jobAbandoned]
  rfl

section

variable {s : State} {p : Port}

theorem State.closeJob_noJob (h : ∀ j ∈ s.copy.engine.place?, j.port ≠ p) :
    s.closeJob p = s.setSession p { s.session p with jobGone := true } := by
  have hjob : ¬s.jobCurrent p = true := fun hcur => by
    obtain ⟨j, hj, hp⟩ := State.jobCurrent_iff.mp hcur
    exact h j hj hp
  rw [State.closeJob, if_neg hjob]

theorem State.closeJob_transferring {j : Job} (he : s.copy.engine = .transferring j) (hp : j.place.port = p) :
    s.closeJob p = s.setOwed p true := by
  have hjob : s.jobCurrent p = true := State.jobCurrent_iff.mpr ⟨j.place, by rw [he]; rfl, hp⟩
  simp only [State.closeJob, if_pos hjob, he]

theorem State.closeJob_waiting {j : Job} (he : s.copy.engine = .waiting j) (hp : j.place.port = p) :
    s.closeJob p = s.jobAbandoned p (if s.holds .copy then s.endGrant else s.withdrawClaim .copy).arbiter := by
  have hjob : s.jobCurrent p = true := State.jobCurrent_iff.mpr ⟨j.place, by rw [he]; rfl, hp⟩
  simp only [State.closeJob, if_pos hjob, he]
  split <;> exact State.finishJob_owed_eq ..

theorem State.closeJob_fetching {j : JobPlace} (he : s.copy.engine = .fetching j) (hp : j.port = p) :
    s.closeJob p = if s.holds .copy then s.setOwed p true else s.jobAbandoned p (s.withdrawClaim .copy).arbiter := by
  have hjob : s.jobCurrent p = true := State.jobCurrent_iff.mpr ⟨j, by rw [he]; rfl, hp⟩
  simp only [State.closeJob, if_pos hjob, he]
  exact congrArg _ (State.finishJob_owed_eq ..)

theorem State.closeJob_writing {w : WriteBack} (he : s.copy.engine = .writing w) (hp : w.place.port = p) :
    s.closeJob p = if s.holds .copy then s.setOwed p true else s.jobAbandoned p (s.withdrawClaim .copy).arbiter := by
  have hjob : s.jobCurrent p = true := State.jobCurrent_iff.mpr ⟨w.place, by rw [he]; rfl, hp⟩
  simp only [State.closeJob, if_pos hjob, he]
  exact congrArg _ (State.finishJob_owed_eq ..)

end

/-- Settles O48: with the ring UNSET, one row of `State.closeJob` for each point the port's job can be at. -/
theorem copyEngineClosingByPoint : Obligations.CopyEngineClosingByPoint := by
  intro s p hrst hann r rings granted gone withdrawn owes row
  have hrow : row = .next ((s.ringClosed p).closeJob p) := exec_copyEngineClosing hrst hann
  have hgranted : granted ↔ (s.ringClosed p).holds .copy = true := State.holds_iff.symm
  have hgone (b : Arbiter) : (s.ringClosed p).jobAbandoned p b = gone b := by
    have hsession : (s.ringClosed p).session p = r := State.setSession_session_same ..
    rw [State.jobAbandoned, hsession]
    exact congrArg (fun v => { gone b with sessions := v }) (put_put ..)
  refine ⟨fun hno => ?noJob, fun j he hp hng => ?fetchClaimed, fun j he hp hg => ?fetchGranted,
    fun j he hp hng => ?segmentClaimed, fun j he hp hg => ?segmentGranted, fun j he hp => ?segment,
    fun w he hp hng => ?writeClaimed, fun w he hp hg => ?writeGranted⟩
  case noJob =>
    have hsession : (s.ringClosed p).session p = r := State.setSession_session_same ..
    rw [hrow, State.closeJob_noJob (s := s.ringClosed p) hno, hsession]
    exact congrArg (fun v => Host.Outcome.next { s.ringClosed p with sessions := v }) (put_put ..)
  case fetchClaimed =>
    rw [hrow, State.closeJob_fetching (s := s.ringClosed p) he hp, if_neg (hgranted.not.mp hng), hgone]
    rfl
  case fetchGranted =>
    rw [hrow, State.closeJob_fetching (s := s.ringClosed p) he hp, if_pos (hgranted.mp hg)]
    rfl
  case segmentClaimed =>
    rw [hrow, State.closeJob_waiting (s := s.ringClosed p) he hp, if_neg (hgranted.not.mp hng), hgone]
    rfl
  case segmentGranted =>
    rw [hrow, State.closeJob_waiting (s := s.ringClosed p) he hp, if_pos (hgranted.mp hg), hgone]
    rfl
  case segment =>
    rw [hrow, State.closeJob_transferring (s := s.ringClosed p) he hp]
    rfl
  case writeClaimed =>
    rw [hrow, State.closeJob_writing (s := s.ringClosed p) he hp, if_neg (hgranted.not.mp hng), hgone]
    rfl
  case writeGranted =>
    rw [hrow, State.closeJob_writing (s := s.ringClosed p) he hp, if_pos (hgranted.mp hg)]
    rfl

end Sys2Proof.Machine
end

section
/-! SUPPORT. Arrivals of events, the closings at the Event and Window Units, PRST# and the reports of a teardown. -/

namespace Sys2Proof.Machine

/-! ## Arrivals (R130, R131) -/

/-- Placing an event for one of the ports UP, or for each port of a list, is the same: the others take none. -/
theorem State.foldl_placed_filter (e : EventRecord) (up : Port → Bool) (l : List Port) :
    ∀ s : State, (∀ q ∈ l, s.isUp q = up q) →
      (l.filter up).foldl (fun t q => t.placed q e) s = l.foldl (fun t q => t.placed q e) s := by
  induction l with
  | nil => exact fun _ _ => rfl
  | cons q l ih =>
    intro s hup
    have hq : s.isUp q = up q := hup q (List.mem_cons_self ..)
    obtain ⟨v, hv⟩ := s.placed_rest q e
    have hrest : ∀ a ∈ l, (s.placed q e).isUp a = up a := fun a ha => by
      rw [hv]
      exact hup a (List.mem_cons_of_mem _ ha)
    rw [List.foldl_cons, ← ih _ hrest]
    cases hb : up q with
    | true => rw [List.filter_cons_of_pos hb, List.foldl_cons]
    | false =>
      have hdown : (s.session q).state ≠ .up := fun h => by
        rw [hb, State.isUp_iff.mpr h] at hq
        cases hq
      rw [List.filter_cons_of_neg (by rw [hb]; decide), State.placed, if_pos hdown]

/-- A peer's event goes to every port but the one named, where it is placed if the port is UP (R142, R143). -/
theorem State.arriveAll_others {s t : State} {p : Port} (hup : ∀ q, q ≠ p → t.isUp q = s.isUp q) (e : EventRecord) :
    t.arriveAll ((s.otherUpPorts p).map fun q => (q, e)) =
      ([(0 : Port), 1, 2, 3].filter fun q => q != p).foldl (fun u q => u.placed q e) t := by
  have hports : s.otherUpPorts p = (allPorts.filter fun q => q != p).filter s.isUp := by
    rw [List.filter_filter, State.otherUpPorts]
    simp only [Bool.and_comm]
  rw [State.arriveAll_eq, List.foldl_map, hports]
  exact State.foldl_placed_filter e _ _ t fun q hq => hup q (by simpa using (List.mem_filter.mp hq).2)

theorem EventPort.held_pos (q : EventPort) : 0 < q.held ↔ q.ordinary ≠ [] ∨ q.overflow ≠ none := by
  cases h : q.overflow <;> simp [EventPort.held, h, List.length_pos_iff]

theorem exec_eventArrival_none {s : State} {source : Producer} (hrst : s.rstLow = false)
    (hno : ∀ h ∈ s.handovers, h.source ≠ source) : exec (.eventArrival source) s = .next s := by
  have hrow : exec (.eventArrival source) s = execEventArrival source s := rfl
  have hfind : (s.handovers.find? fun h => h.source == source) = none := by
    simpa [List.find?_eq_none] using hno
  rw [hrow, execEventArrival, whileRunning_high hrst]
  simp only [hfind]

theorem exec_eventArrival_oldest {s : State} {source : Producer} {before after : List Handover} {h : Handover}
    (hrst : s.rstLow = false) (hs : s.handovers = before ++ h :: after) (hsource : h.source = source)
    (hbefore : ∀ g ∈ before, g.source ≠ source) :
    exec (.eventArrival source) s = .next ((s.setHandovers (before ++ after)).arriveAll h.events) := by
  have hrow : exec (.eventArrival source) s = execEventArrival source s := rfl
  have hnone : (before.find? fun h => h.source == source) = none := by
    simpa [List.find?_eq_none] using hbefore
  have hfind : (s.handovers.find? fun h => h.source == source) = some h := by
    rw [hs, List.find?_append, hnone, List.find?_cons_of_pos (by simpa using hsource)]
    rfl
  have hnot : h ∉ before := fun hmem => hbefore h hmem hsource
  have herase : s.handovers.erase h = before ++ after := by
    rw [hs, List.erase_append_right _ hnot, List.erase_cons_head]
  rw [hrow, execEventArrival, whileRunning_high hrst]
  simp only [hfind, herase]

/-- Settles O44: the oldest hand-over of the producer is the first in the list, and each event is placed by `State.arriveAll_eq`. -/
theorem eventArrivalPlacesEvents : Obligations.EventArrivalPlacesEvents := by
  refine ⟨fun s p => ?irq,
    fun s source hrst => ⟨exec_eventArrival_none hrst, fun before h after hs hsource hbefore => ?oldest⟩⟩
  case irq => simp [State.irqAsserted, EventPort.held_pos, and_assoc]
  case oldest =>
    rw [exec_eventArrival_oldest hrst hs hsource hbefore, State.arriveAll_eq]
    rfl

/-! ## The closings at the Event Unit and the Window Unit, and an entry to UP (R96, R142 to R144, R148) -/

/-- Settles O46: an event for the other ports UP is one for all the others, since a port that is not UP takes none. -/
theorem closingAtEventAndWindowUnits : Obligations.ClosingAtEventAndWindowUnits := by
  intro s p hrst r others
  have hevent : exec (.eventUnitClosing p) s = execEventUnitClosing p s := rfl
  have hpeer : exec (.peerUp p) s = execPeerUp p s := rfl
  have hwindow : exec (.windowUnitClosing p) s = execWindowUnitClosing p s := rfl
  rw [execEventUnitClosing, whileRunning_high hrst] at hevent
  rw [execPeerUp, whileRunning_high hrst] at hpeer
  rw [execWindowUnitClosing, whileRunning_high hrst] at hwindow
  refine ⟨fun hann hup => ?closing, fun hup => ?waits, fun n hup => ?peer, fun hann => ?window⟩
  case closing =>
    have htake : ((s.session p).annEvent && (s.session p).peerUp.isNone) = true := by
      rw [show (s.session p).annEvent = true from hann, show (s.session p).peerUp = none from hup]
      rfl
    rw [hevent, if_pos htake, State.arriveAll_others fun q hq => ?_]
    · rfl
    · rw [State.isUp, State.setSession_session_of_ne _ _ _ _ hq]
      rfl
  case waits =>
    have hwait : ¬((s.session p).annEvent && (s.session p).peerUp.isNone) = true := by
      simpa using fun _ => hup
    rw [hevent, if_neg hwait]
  case peer =>
    simp only [show (s.session p).peerUp = some n from hup] at hpeer
    rw [hpeer, State.arriveAll_others fun q hq => ?_]
    · rfl
    · rw [State.isUp, State.setSession_session_of_ne _ _ _ _ hq]
      rfl
  case window =>
    rw [hwindow, if_pos hann]
    rfl

/-! ## PRST# (R169, R170, R192) -/

theorem State.setPrst_session (s : State) (p : Port) (low : Bool) :
    (s.setPrst p low).session p = { s.session p with prstLow := low } := State.setSession_session_same ..

/-- The session record that an entry to UP or to CLOSING starts from overwrites the one before. -/
theorem State.setSession_setSession (s : State) (p : Port) (r r' : SessionRecord) :
    (s.setSession p r).setSession p r' = s.setSession p r' :=
  congrArg (fun v => { s with sessions := v }) (put_put ..)

theorem State.enteredUp_setSession (s : State) (p : Port) (r r' : SessionRecord) :
    (s.setSession p r).enteredUp p r' = s.enteredUp p r' := by
  simp only [State.enteredUp, State.setSession, put_put]

theorem State.enteredClosing_setSession (s : State) (p : Port) (r r' : SessionRecord) (rejoin : Bool) :
    (s.setSession p r).enteredClosing p r' rejoin = s.enteredClosing p r' rejoin := by
  simp only [State.enteredClosing, State.setSession, put_put]

theorem exec_prstAsserted {s : State} {p : Port} (hrst : s.rstLow = false) (hpin : (s.session p).prstLow = false) :
    exec (.prstAsserted p) s = .next (((s.setPrst p true).assertPrst p).setWindow p (s.window p).prstAsserted) := by
  have hrow : exec (.prstAsserted p) s = execPrstAsserted p s := rfl
  rw [hrow, execPrstAsserted, whileRunning_high hrst, if_neg (by rw [hpin]; decide)]

theorem exec_prstReleased {s : State} {p : Port} (hrst : s.rstLow = false) (hpin : (s.session p).prstLow = true) :
    exec (.prstReleased p) s = .next ((s.setPrst p false).releasePrst p) := by
  have hrow : exec (.prstReleased p) s = execPrstReleased p s := rfl
  rw [hrow, execPrstReleased, whileRunning_high hrst, if_pos hpin]

/-- A change of PRST# to the level already taken is nothing. -/
theorem exec_prstAsserted_low {s : State} {p : Port} (hrst : s.rstLow = false) (hpin : (s.session p).prstLow = true) :
    exec (.prstAsserted p) s = .next s := by
  have hrow : exec (.prstAsserted p) s = execPrstAsserted p s := rfl
  rw [hrow, execPrstAsserted, whileRunning_high hrst, if_pos hpin]

theorem exec_prstReleased_high {s : State} {p : Port} (hrst : s.rstLow = false) (hpin : (s.session p).prstLow = false) :
    exec (.prstReleased p) s = .next s := by
  have hrow : exec (.prstReleased p) s = execPrstReleased p s := rfl
  rw [hrow, execPrstReleased, whileRunning_high hrst, if_neg (by rw [hpin]; decide)]

/-- Settles O45: the entry to CLOSING or UP starts from the record whose pin has changed, and overwrites it. -/
theorem prstChangesSession : Obligations.PrstChangesSession := by
  intro s p hrst r w bus
  have hsession (low : Bool) : (s.setPrst p low).session p = { r with prstLow := low } := s.setPrst_session p low
  refine ⟨fun hpin => ⟨fun hup => ?closes, fun rejoin step hclosing => ?rejoinOff, exec_prstReleased_high hrst hpin⟩,
    fun hpin => ⟨fun hdown => ?enters, fun rejoin step hclosing => ?rejoinOn, exec_prstAsserted_low hrst hpin⟩⟩
  case closes =>
    have hstate : ((s.setPrst p true).session p).state = .up := (congrArg _ (hsession true)).trans hup
    rw [exec_prstAsserted hrst hpin]
    simp only [State.assertPrst, hstate]
    rw [State.enterClosing_eq, hsession, State.setPrst, State.enteredClosing_setSession]
    rfl
  case rejoinOff =>
    have hstate : ((s.setPrst p true).session p).state = .closing rejoin step :=
      (congrArg _ (hsession true)).trans hclosing
    rw [exec_prstAsserted hrst hpin]
    simp only [State.assertPrst, hstate]
    rw [hsession, State.setPrst, State.setSession_setSession]
    rfl
  case enters =>
    have hstate : ((s.setPrst p false).session p).state = .down := (congrArg _ (hsession false)).trans hdown
    rw [exec_prstReleased hrst hpin]
    simp only [State.releasePrst, hstate]
    rw [State.enterUp_eq, hsession, State.setPrst, State.enteredUp_setSession]
  case rejoinOn =>
    have hstate : ((s.setPrst p false).session p).state = .closing rejoin step :=
      (congrArg _ (hsession false)).trans hclosing
    rw [exec_prstReleased hrst hpin]
    simp only [State.releasePrst, hstate]
    rw [hsession, State.setPrst, State.setSession_setSession]
    rfl

/-! ## The reports of a teardown (R178, R179) -/

/-- Settles O49: by the two reports' guards; `State.closingSettled_iff` is the condition of log 8. -/
theorem teardownReportsMoveOn : Obligations.TeardownReportsMoveOn := by
  intro s p rejoin hrst r settled done
  have hgone : exec (.jobGone p) s = execJobGone p s := rfl
  have hdone : exec (.disposalDone p) s = execDisposalDone p s := rfl
  rw [execJobGone, whileRunning_high hrst] at hgone
  rw [execDisposalDone, whileRunning_high hrst] at hdone
  have hsettled : s.closingSettled p = true ↔ settled := State.closingSettled_iff
  refine ⟨fun hstate hjob => ?job, fun hstate hreport hset hrejoin => ?down, fun hstate hreport hset hrejoin => ?up,
    fun hset => ?unsettled⟩
  case job =>
    simp only [show (s.session p).jobGone = true from hjob, show (s.session p).state = _ from hstate, if_true] at hgone
    exact hgone
  case down =>
    subst hrejoin
    simp only [show (s.session p).disposalDone = true from hreport, hsettled.mpr hset, Bool.and_self,
      show (s.session p).state = _ from hstate, if_true, Bool.false_eq_true, if_false] at hdone
    exact hdone
  case up =>
    subst hrejoin
    simp only [show (s.session p).disposalDone = true from hreport, hsettled.mpr hset, Bool.and_self,
      show (s.session p).state = _ from hstate, if_true] at hdone
    rw [hdone, State.enterUp_eq, State.setSession_session_same, State.enteredUp_setSession]
    rfl
  case unsettled =>
    have hno : ¬((s.session p).disposalDone && s.closingSettled p) = true := fun h =>
      hset (hsettled.mp (Bool.and_eq_true_iff.mp h).2)
    rw [hdone, if_neg hno]

end Sys2Proof.Machine
end

section
/-! SUPPORT. Chip reset: the bytes of a grant cut short, the assertion and the rising edge of RST#, and the state after reset. -/

namespace Sys2Proof.Machine

/-! ## The bytes of a grant cut short (R43, R100, R197; log 14) -/

theorem Memory.read_write_ite {m : Memory} {a x : Nat} {b : Byte} (hm : m.wf = true) :
    Memory.read (Memory.write m a b) x = if x = a ∧ a < Config.arrayBytes then b else m.read x := by
  by_cases ha : a < Config.arrayBytes
  · simp only [Memory.read_write hm ha, ha, and_true]
  · simp only [Memory.write, ha, and_false, if_false]

/-- A byte of a run of bytes, where the run may leave the array behind. -/
theorem Memory.read_writeBytes_inArray {bs : List Byte} : ∀ {m : Memory} {a i : Nat}, m.wf = true → (hi : i < bs.length) →
    a + i < Config.arrayBytes → Memory.read (Memory.writeBytes m a bs) (a + i) = bs[i] := by
  induction bs with
  | nil => exact fun _ hi => absurd hi (Nat.not_lt_zero _)
  | cons b bs ih =>
    intro m a i hm hi hin
    cases i with
    | zero =>
      rw [Memory.writeBytes, Memory.writeBytes_other (Memory.write_wf hm) (.inl (by omega)), Memory.read_write_ite hm,
        if_pos ⟨rfl, hin⟩]
      rfl
    | succ i =>
      have hnext := ih (m := Memory.write m a b) (a := a + 1) (Memory.write_wf hm) (Nat.lt_of_succ_lt_succ hi) (by omega)
      rw [show a + 1 + i = a + (i + 1) by omega] at hnext
      exact hnext

theorem Memory.readBytes_getElem (m : Memory) {a n i : Nat} (hi : i < (Memory.readBytes m a n).length) :
    (Memory.readBytes m a n)[i] = m.read (a + i) := by
  induction n generalizing a i with
  | zero => exact absurd hi (Nat.not_lt_zero _)
  | succ n ih =>
    cases i with
    | zero => rfl
    | succ i =>
      have hnext : (Memory.readBytes m (a + 1) n)[i]'(Nat.lt_of_succ_lt_succ hi) = m.read (a + 1 + i) := ih _
      rw [show a + 1 + i = a + (i + 1) by omega] at hnext
      exact hnext

/-- Every byte of the first array stands as in the second or as in the third. -/
def Memory.Between (m old new : Memory) : Prop := ∀ x, m.read x = old.read x ∨ m.read x = new.read x

theorem Memory.Between.refl (m new : Memory) : m.Between m new := fun _ => .inl rfl

/-- Those of a run's bytes that have been written are the new array's, where the whole run is. -/
theorem Memory.writeSome_between {done : Nat → Bool} {new : Memory} {bs : List Byte} : ∀ {k : Nat} {m : Memory} {a : Nat},
    m.wf = true → (∀ i (hi : i < bs.length), a + i < Config.arrayBytes → bs[i] = new.read (a + i)) →
      (Memory.writeSome done k m a bs).Between m new := by
  induction bs with
  | nil => exact fun _ _ => Memory.Between.refl _ _
  | cons b bs ih =>
    intro k m a hm hnew x
    have hwrite : (if done k then Memory.write m a b else m).wf = true := by
      split
      · exact Memory.write_wf hm
      · exact hm
    have hrest := ih (k := k + 1) (a := a + 1) hwrite (fun i hi hin => by
      have hb := hnew (i + 1) (Nat.succ_lt_succ hi) (by omega)
      rw [show a + (i + 1) = a + 1 + i by omega] at hb
      exact hb) x
    have hfirst : Memory.read (if done k then Memory.write m a b else m) x = m.read x ∨
        Memory.read (if done k then Memory.write m a b else m) x = new.read x := by
      split
      · rw [Memory.read_write_ite hm]
        split
        · next h => exact .inr (h.1 ▸ hnew 0 (Nat.zero_lt_succ _) h.2)
        · exact .inl rfl
      · exact .inl rfl
    rcases hrest with hold | hnew
    · exact hfirst.imp hold.trans hold.trans
    · exact .inr hnew

theorem Memory.Between.trans {m mid old new : Memory} (h : m.Between mid new) (h' : mid.Between old new) :
    m.Between old new := fun x =>
  (h x).elim (fun hmid => (h' x).imp hmid.trans hmid.trans) .inr

/-- Those of a run's bytes that have been written, against the run written whole. -/
theorem Memory.writeSome_between_writeBytes {done : Nat → Bool} {k : Nat} {m : Memory} {a : Nat} {bs : List Byte}
    (hm : m.wf = true) : (Memory.writeSome done k m a bs).Between m (Memory.writeBytes m a bs) :=
  Memory.writeSome_between hm fun _ hi hin => (Memory.read_writeBytes_inArray hm hi hin).symm

/-- Those of a copy's bytes that have been written, against the whole copy. -/
theorem Memory.writeSome_between_copyBytes {done : Nat → Bool} {k : Nat} {m new : Memory} {a n : Nat} (hm : m.wf = true) :
    (Memory.writeSome done k m a (Memory.readBytes new a n)).Between m new :=
  Memory.writeSome_between hm fun _ hi _ => Memory.readBytes_getElem new hi

/-- Those of the ten bytes of a write-back that have been written, against the whole write-back. -/
theorem WriteBack.writeSome_between_applyTo {done : Nat → Bool} {w : WriteBack} {m : Memory} (hm : m.wf = true) :
    (Memory.writeSome done 2 (Memory.writeSome done 0 m w.place.addr w.controlBytes) (w.place.addr + 12)
      w.resultBytes).Between m (w.applyTo m) := by
  have hcontrol : (Memory.writeSome done 0 m w.place.addr w.controlBytes).Between m (w.applyTo m) :=
    Memory.writeSome_between hm fun i hi hin => by
      have hlength := w.controlBytes_length
      rw [WriteBack.applyTo, Memory.writeBytes_other (Memory.writeBytes_wf hm) (.inl (by omega)),
        Memory.read_writeBytes_inArray hm hi hin]
  refine .trans (Memory.writeSome_between (Memory.writeSome_wf hm) fun i hi hin => ?_) hcontrol
  rw [WriteBack.applyTo, Memory.read_writeBytes_inArray (Memory.writeBytes_wf hm) hi hin]

/-- Those of a held write's lanes that have been written, against all of them. -/
theorem Memory.writeLanes_between {m : Memory} {w : HeldWrite} (hm : m.wf = true) (low high : Bool) :
    (Memory.writeLanes m { w with lo := w.lo && low, hi := w.hi && high }).Between m (Memory.writeLanes m w) := by
  have hread (lo hi : Bool) (x : Nat) : Memory.read (Memory.writeLanes m { w with lo := lo, hi := hi }) x =
      if (hi = true ∧ x = w.place.addr + 1) ∧ w.place.addr + 1 < Config.arrayBytes then w.data.extractLsb' 8 8
      else if (lo = true ∧ x = w.place.addr) ∧ w.place.addr < Config.arrayBytes then w.data.extractLsb' 0 8
      else m.read x := by
    cases lo <;> cases hi <;>
      simp only [Memory.writeLanes, Memory.read_write_ite, Memory.write_wf, hm, if_true, if_false, Bool.false_eq_true,
        true_and, false_and]
  intro x
  rw [hread, show Memory.read (Memory.writeLanes m w) x = _ from hread w.lo w.hi x]
  by_cases hx : x = w.place.addr + 1
  · have hlow : ¬x = w.place.addr := by omega
    cases high
    · exact .inl (by simp [hlow])
    · exact .inr (by simp [hlow])
  · cases low
    · exact .inl (by simp [hx])
    · exact .inr (by simp [hx])

/-! ## The assertion and the rising edge of RST# (R197, R198) -/

section

variable {s t : State}

/-- A held write cut short. -/
theorem State.cutShortMem_port {p : Port} (hm : s.mem.wf = true) (hrst : s.rstLow = false)
    (hheld : s.arbiter.array = .held (.port p)) (h : exec (.writeCarriedOut p) s = .next t) :
    s.cutShortMem.Between s.mem t.mem := by
  have hrow : exec (.writeCarriedOut p) s = execWriteCarriedOut p s := rfl
  rw [hrow, execWriteCarriedOut, whileRunning_high hrst] at h
  rw [State.cutShortMem, hheld]
  cases hhold : (s.window p).hold with
  | none =>
    simp only [hhold]
    exact .refl _ _
  | some w =>
    simp only [hhold, State.holds_iff.mpr hheld, if_true] at h ⊢
    cases h
    exact Memory.writeLanes_between hm _ _

theorem State.pieceEnd_mem (s : State) (m : Memory) : (((s.setMem m).endGrant).afterPiece).mem = m :=
  ((State.endGrant_changes _).trans (State.afterPiece_changes _)).same .mem rfl

/-- A piece of a scrub cut short. -/
theorem State.cutShortMem_scrub (hm : s.mem.wf = true) (hrst : s.rstLow = false)
    (hheld : s.arbiter.array = .held .scrub) (h : exec .pieceEnd s = .next t) :
    s.cutShortMem.Between s.mem t.mem := by
  rw [State.cutShortMem, hheld]
  dsimp only
  split
  · next f rest hphase hq =>
    rw [exec_pieceEnd hrst hphase hheld hq] at h
    cases h
    rw [State.pieceEnd_mem]
    exact Memory.writeSome_between_writeBytes hm
  · exact .refl _ _

theorem State.segmentEnd_mem (s : State) (m : Memory) (j k : Job) :
    (((((s.setMem m).setMarks j false).endGrant).afterSegment k).wakeHeld).mem = m :=
  ((((State.setMarks_changes _ j false).trans (State.endGrant_changes _)).trans (State.afterSegment_changes _ k)).trans
    (State.wakeHeld_changes _)).same .mem rfl

theorem State.writeBackEnd_mem (s : State) (m : Memory) (p : Port) (g : Ring) (l : List (Port × EventRecord)) :
    (((((s.setMem m).setRing p g).handOver .copyEngine l).finishJob p).endGrant).mem = m :=
  ((((State.setRing_changes _ p g).trans (State.handOver_changes _ .copyEngine l)).trans (State.finishJob_changes _ p)).trans
    (State.endGrant_changes _)).same .mem rfl

/-- A segment or a write-back cut short; a fetch, and a segment not yet begun, write nothing. -/
theorem State.cutShortMem_copy (hm : s.mem.wf = true) (hrst : s.rstLow = false)
    (hheld : s.arbiter.array = .held .copy)
    (h : if s.copy.engine.segment?.isSome then exec .segmentEnd s = .next t else exec .writeBackEnd s = .next t) :
    s.cutShortMem.Between s.mem t.mem := by
  rw [State.cutShortMem, hheld]
  dsimp only
  split
  · next j he =>
    have hsegment : s.copy.engine.segment?.isSome = true := by
      rw [he]
      rfl
    rw [if_pos hsegment, exec_segmentEnd hrst hheld he] at h
    cases h
    rw [State.segmentEnd_mem]
    exact Memory.writeSome_between_copyBytes hm
  · next w he =>
    have hsegment : ¬s.copy.engine.segment?.isSome = true := by
      rw [he]
      nofun
    rw [if_neg hsegment, exec_writeBackEnd hrst hheld he] at h
    cases h
    rw [State.writeBackEnd_mem]
    exact WriteBack.writeSome_between_applyTo hm
  · exact .refl _ _

/-- With no grant in progress nothing is cut short. -/
theorem State.cutShortMem_noGrant (h : s.arbiter.array = .free ∨ s.arbiter.array = .ended) : s.cutShortMem = s.mem := by
  rw [State.cutShortMem]
  rcases h with h | h <;> rw [h]

end

/-- Settles O51: the array is `State.cutShortMem`, and each table is the abandoned one, entry by entry. -/
theorem rstAssertedAbandonsWork : Obligations.RstAssertedAbandonsWork := by
  intro s hrst hm
  refine ⟨s.cutShortMem, mapAll (fun r => { r with mark := false }) s.frames,
    mapAll (fun g => { g with kickNoted := false }) s.copy.rings, mapAll WindowUnit.abandoned s.windows,
    mapAll (fun c => { c with pendingCmd := none }) s.commands, mapAll SessionRecord.abandoned s.sessions,
    State.cutShortMem_noGrant, fun c t x hheld h => ?bytes, fun f => sel_mapAll ..,
    fun p => ⟨sel_mapAll .., sel_mapAll .., sel_mapAll .., sel_mapAll ..⟩, ?row⟩
  case bytes =>
    cases c with
    | port p => exact State.cutShortMem_port hm hrst hheld h x
    | scrub => exact State.cutShortMem_scrub hm hrst hheld h x
    | copy => exact State.cutShortMem_copy hm hrst hheld h x
  case row =>
    have hrow : exec .rstAsserted s = execRstAsserted s := rfl
    rw [hrow, execRstAsserted, hrst]
    rfl

/-- Settles O52: the state is `State.atRisingEdge`; with the pins of State.reset each sampled table is the replicated one. -/
theorem risingEdgeGivesResetState : Obligations.RisingEdgeGivesResetState := by
  have hrow (s : State) (qmode : Bool) (prst : Vector Bool 4) (h : s.rstLow = true) :
      exec (.rstRisingEdge qmode prst) s = .next (s.atRisingEdge qmode prst) := by
    have hexec : exec (.rstRisingEdge qmode prst) s = execRstRisingEdge qmode prst s := rfl
    rw [hexec, execRstRisingEdge, if_pos h]
  refine ⟨fun s qmode prst h => ⟨mapAll not prst, mapAll SessionRecord.reset prst,
    fun p => ⟨sel_mapAll .., sel_mapAll ..⟩, hrow s qmode prst h⟩, ?_⟩
  have hclosed : mapAll not (Vector.replicate 4 true) = Vector.replicate 4 false := by decide
  have hsessions : mapAll SessionRecord.reset (Vector.replicate 4 true) = Vector.replicate 4 (SessionRecord.reset true) := by
    decide
  rw [hrow _ _ _ rfl, State.atRisingEdge, hclosed, hsessions]
  rfl

/-! ## The state after reset -/

section

variable (f : Frame) (p : Port)

theorem State.reset_frame : State.reset.frame f = FrameRecord.reset := sel_replicate ..

theorem State.reset_session : State.reset.session p = SessionRecord.reset true := sel_replicate ..

theorem State.reset_window : State.reset.window p = WindowUnit.reset := sel_replicate ..

theorem State.reset_ring : State.reset.ring p = Ring.unset := sel_replicate ..

theorem State.reset_queue : State.reset.queue p = EventPort.reset := sel_replicate ..

theorem State.reset_inbox : State.reset.inbox p = [] := sel_replicate ..

theorem State.reset_owed : sel State.reset.copy.owed p = false := sel_replicate ..

theorem State.reset_dirUp : State.reset.dirUp p = true := congrArg not (sel_replicate false p)

end

/-- Settles O53: every record is its block's reset record, and the conditions on it are evaluated. -/
theorem resetMeetsInvariants : Obligations.ResetMeetsInvariants := by
  refine ⟨rfl, fun f => ?frames, nofun, fun f => ?marks, fun f q hdown => ?grants, fun p => ?inboxes, ?scrub, fun p => ?pins,
    ⟨List.nodup_nil, nofun, fun p => ?view⟩, fun p => ?teardown, fun p => ?rings, ⟨nofun, fun p howed => ?owed⟩,
    ⟨nofun, nofun⟩, fun p c hc => ?ringFrames, fun p hdown => ?closedRings, fun p => ?holdings, fun p => ?units,
    fun p => ?queues, fun p => ?buses, fun _ => ?claims, by decide⟩
  case frames => simp [State.reset_frame, FrameRecord.reset, FrameRecord.Legal]
  case marks => rw [State.reset_frame]; rfl
  case grants => rw [State.reset_dirUp] at hdown; cases hdown
  case inboxes => simp [State.reset_inbox, State.reset_frame, FrameRecord.reset]
  case scrub =>
    refine ⟨List.nodup_finRange 64, fun f => ⟨fun _ => ?_, fun _ => List.mem_finRange f⟩, .inr (List.cons_ne_nil _ _), nofun,
      fun _ => by decide, nofun, fun f _ => ⟨nofun, fun _ => ?_⟩⟩
    · rw [State.reset_frame]; rfl
    · rw [State.reset_frame]; rfl
  case pins => simp [State.reset_session, SessionRecord.reset, SessionState.rejoin?]
  case view =>
    have hstate : (State.reset.session p).state = .up := by rw [State.reset_session]; rfl
    refine ⟨fun _ => State.reset_dirUp p, fun h => ?_, nofun, nofun, fun h => ?_⟩
    · rw [hstate] at h; cases h
    · rw [State.isClosing, hstate] at h; cases h
  case teardown =>
    have hclosing : State.reset.isClosing p = false := by rw [State.isClosing, State.reset_session]; rfl
    have htokens : State.reset.teardownTokens p = 0 := by
      rw [State.teardownTokens, State.reset_session, State.reset_owed]
      rfl
    refine ⟨fun h => ?_, fun _ => htokens, fun h => ?_, fun h => ?_⟩
    · rw [hclosing] at h; cases h
    · rw [State.reset_session] at h; cases h
    · rw [State.reset_session] at h; cases h
  case rings => simp [State.reset_ring, Ring.unset]
  case owed => rw [State.reset_owed] at howed; cases howed
  case ringFrames => rw [State.reset_ring] at hc; cases hc
  case closedRings => exact fun _ _ => State.reset_ring p
  case holdings => simp [State.reset_session, SessionRecord.reset]
  case units => simp [State.reset_session, SessionRecord.reset]
  case queues => rw [State.reset_queue]; decide
  case buses => simp [State.reset_window, WindowUnit.reset]
  case claims =>
    refine ⟨fun p => ?_, rfl, rfl⟩
    rw [State.claims, State.needsArray, State.reset_window]
    rfl

end Sys2Proof.Machine
end
